-- ==== Sys2Proof/Word.lean ====
section
/-! DEFINITION. The word types of the CORE: what the spec treats as bits is a bit vector, what it treats as an index is a
`Fin` (00_scope.md R6, R8). Every value is unsigned (R8). -/

namespace Sys2Proof

/-- An 8-bit register, memory byte, timer or immediate NN (R6, R14, R20 to R22, R55). -/
abbrev Byte := BitVec 8

/-- A 16-bit instruction word, I, PC, or return address (R16 to R18, R51). -/
abbrev Word := BitVec 16

/-- A nibble of an instruction word (R8). -/
abbrev Nibble := BitVec 4

/-- The 12-bit address immediate NNN (R54), and the font base of D14. -/
abbrev Addr12 := BitVec 12

/-- The sixteen key levels, bit k for key k (R26, R28). -/
abbrev Keys := BitVec 16

/-- A register index X or Y, 0..15: every value is valid (R57). -/
abbrev Reg := Fin 16

/-- VF, the register six instructions also write as a flag (R14, R15). -/
abbrev VF : Reg := 15

end Sys2Proof
end

