-- ==== Sys2Proof/Syntax.lean ====
section
/-! DEFINITION. The instruction set: one constructor for each row of opcode_table.json, named by the spec's own pattern
(30_encoding.md R62, R66). Operands stand in the pattern's order X, Y, N or NN or NNN (R52). -/

namespace Sys2Proof

/-- The 34 instructions (R62). A word of no row is an invalid opcode (R63) and is no instruction: see `decodeWord`. -/
inductive Instr
  /-- clear the display (R102) -/
  | op00E0
  /-- return from a subroutine (R69) -/
  | op00EE
  /-- jump (R70) -/
  | op1NNN (nnn : Addr12)
  /-- call (R71) -/
  | op2NNN (nnn : Addr12)
  /-- skip if VX = NN (R72) -/
  | op3XNN (x : Reg) (nn : Byte)
  /-- skip if VX ≠ NN (R73) -/
  | op4XNN (x : Reg) (nn : Byte)
  /-- skip if VX = VY (R74) -/
  | op5XY0 (x y : Reg)
  /-- load immediate (R81) -/
  | op6XNN (x : Reg) (nn : Byte)
  /-- add immediate, no flag (R82) -/
  | op7XNN (x : Reg) (nn : Byte)
  /-- copy (R83) -/
  | op8XY0 (x y : Reg)
  /-- bitwise OR (R84) -/
  | op8XY1 (x y : Reg)
  /-- bitwise AND (R85) -/
  | op8XY2 (x y : Reg)
  /-- bitwise XOR (R86) -/
  | op8XY3 (x y : Reg)
  /-- add with carry out (R87) -/
  | op8XY4 (x y : Reg)
  /-- VX − VY (R88) -/
  | op8XY5 (x y : Reg)
  /-- shift right by one (R89) -/
  | op8XY6 (x y : Reg)
  /-- VY − VX into VX (R90) -/
  | op8XY7 (x y : Reg)
  /-- shift left by one (R91) -/
  | op8XYE (x y : Reg)
  /-- skip if VX ≠ VY (R75) -/
  | op9XY0 (x y : Reg)
  /-- load I (R93) -/
  | opANNN (nnn : Addr12)
  /-- jump to NNN + V0 (R76) -/
  | opBNNN (nnn : Addr12)
  /-- random byte AND NN (R92) -/
  | opCXNN (x : Reg) (nn : Byte)
  /-- draw an N-row sprite (R103, R104); N is 0..15 (R56) -/
  | opDXYN (x y : Reg) (n : Fin 16)
  /-- skip if key VX is pressed (R107) -/
  | opEX9E (x : Reg)
  /-- skip if key VX is not pressed (R108) -/
  | opEXA1 (x : Reg)
  /-- read the delay timer (R111) -/
  | opFX07 (x : Reg)
  /-- wait for a key press (R109) -/
  | opFX0A (x : Reg)
  /-- set the delay timer (R112) -/
  | opFX15 (x : Reg)
  /-- set the sound timer (R113) -/
  | opFX18 (x : Reg)
  /-- add VX to I (R94) -/
  | opFX1E (x : Reg)
  /-- point I at a font glyph (R95) -/
  | opFX29 (x : Reg)
  /-- store decimal digits (R96) -/
  | opFX33 (x : Reg)
  /-- store V0..VX (R97) -/
  | opFX55 (x : Reg)
  /-- load V0..VX (R98) -/
  | opFX65 (x : Reg)
deriving DecidableEq, Repr

end Sys2Proof
end

