-- ==== Sys2Proof/Decode.lean ====
section
/-! DEFINITION. The decoder, total on any bytes, then the encoder, both from the formats and the opcode map of
30_encoding.md (R51 to R53, R61, R62), and the opcode table itself as mask and match rows. -/

namespace Sys2Proof

/-! ### Fields (R52) -/

/-- The family nibble w[15:12]. -/
def fieldOp (w : Word) : Nibble := w.extractLsb' 12 4

/-- X = w[11:8]. -/
def fieldX (w : Word) : Reg := (w.extractLsb' 8 4).toFin

/-- Y = w[7:4]. -/
def fieldY (w : Word) : Reg := (w.extractLsb' 4 4).toFin

/-- N = w[3:0], the sprite height. -/
def fieldN (w : Word) : Fin 16 := (w.extractLsb' 0 4).toFin

/-- f = w[3:0], the selector of families 5, 8 and 9. -/
def fieldF (w : Word) : Nibble := w.extractLsb' 0 4

/-- NN = w[7:0], and ff, the selector byte of families E and F. -/
def fieldNN (w : Word) : Byte := w.extractLsb' 0 8

/-- NNN = w[11:0]. -/
def fieldNNN (w : Word) : Addr12 := w.extractLsb' 0 12

/-! ### Decoding -/

/-- Family 8, by its low nibble (R62). -/
def decodeFamily8 (w : Word) : Option Instr :=
  let x := fieldX w
  let y := fieldY w
  match fieldF w with
  | 0x0#4 => some (.op8XY0 x y)
  | 0x1#4 => some (.op8XY1 x y)
  | 0x2#4 => some (.op8XY2 x y)
  | 0x3#4 => some (.op8XY3 x y)
  | 0x4#4 => some (.op8XY4 x y)
  | 0x5#4 => some (.op8XY5 x y)
  | 0x6#4 => some (.op8XY6 x y)
  | 0x7#4 => some (.op8XY7 x y)
  | 0xE#4 => some (.op8XYE x y)
  | _     => none

/-- Family E, by its low byte (R62). -/
def decodeFamilyE (w : Word) : Option Instr :=
  match fieldNN w with
  | 0x9E#8 => some (.opEX9E (fieldX w))
  | 0xA1#8 => some (.opEXA1 (fieldX w))
  | _      => none

/-- Family F, by its low byte (R62). -/
def decodeFamilyF (w : Word) : Option Instr :=
  let x := fieldX w
  match fieldNN w with
  | 0x07#8 => some (.opFX07 x)
  | 0x0A#8 => some (.opFX0A x)
  | 0x15#8 => some (.opFX15 x)
  | 0x18#8 => some (.opFX18 x)
  | 0x1E#8 => some (.opFX1E x)
  | 0x29#8 => some (.opFX29 x)
  | 0x33#8 => some (.opFX33 x)
  | 0x55#8 => some (.opFX55 x)
  | 0x65#8 => some (.opFX65 x)
  | _      => none

/-- The instruction a word is, or `none` for an invalid opcode: the family by w[15:12], then the low nibble or the low
byte (R61, R62, R63). -/
def decodeWord (w : Word) : Option Instr :=
  match fieldOp w with
  | 0x0#4 => if w = 0x00E0#16 then some .op00E0 else if w = 0x00EE#16 then some .op00EE else none
  | 0x1#4 => some (.op1NNN (fieldNNN w))
  | 0x2#4 => some (.op2NNN (fieldNNN w))
  | 0x3#4 => some (.op3XNN (fieldX w) (fieldNN w))
  | 0x4#4 => some (.op4XNN (fieldX w) (fieldNN w))
  | 0x5#4 => if fieldF w = 0#4 then some (.op5XY0 (fieldX w) (fieldY w)) else none
  | 0x6#4 => some (.op6XNN (fieldX w) (fieldNN w))
  | 0x7#4 => some (.op7XNN (fieldX w) (fieldNN w))
  | 0x8#4 => decodeFamily8 w
  | 0x9#4 => if fieldF w = 0#4 then some (.op9XY0 (fieldX w) (fieldY w)) else none
  | 0xA#4 => some (.opANNN (fieldNNN w))
  | 0xB#4 => some (.opBNNN (fieldNNN w))
  | 0xC#4 => some (.opCXNN (fieldX w) (fieldNN w))
  | 0xD#4 => some (.opDXYN (fieldX w) (fieldY w) (fieldN w))
  | 0xE#4 => decodeFamilyE w
  | 0xF#4 => decodeFamilyF w
  | _     => none

/-- The big-endian word of two bytes: the byte at the lower address is the high byte (20_memory.md R38). -/
def wordOfBytes (hi lo : Byte) : Word := hi ++ lo

/-- What decoding a byte string gives, with the bytes that are left. -/
inductive Decoded
  /-- an instruction (R62) -/
  | instr (i : Instr) (rest : List Byte)
  /-- an invalid opcode: a word of no row of R62 (R63) -/
  | invalidOpcode (w : Word) (rest : List Byte)
  /-- fewer than the 2 bytes that "a decoder always consumes" (R51) -/
  | truncated (bytes : List Byte)
deriving DecidableEq, Repr

/-- Decoding of any bytes: always exactly 2 (R51). -/
def decodeBytes : List Byte → Decoded
  | hi :: lo :: rest =>
    match decodeWord (wordOfBytes hi lo) with
    | some i => .instr i rest
    | none   => .invalidOpcode (wordOfBytes hi lo) rest
  | bytes => .truncated bytes

/-- The high byte of a word, which stands at the lower address (R38). -/
def highByte (w : Word) : Byte := w.extractLsb' 8 8

/-- The low byte of a word (R38). -/
def lowByte (w : Word) : Byte := w.extractLsb' 0 8

/-- An opcode-table word of `nbits` bits as the hardware's 16-bit word, the bits above `nbits` zero. -/
def tableWord (nbits w : Nat) : Word := BitVec.ofNat 16 (w % 2 ^ nbits)

/-- The instruction the decoder reads from a word numbered as opcode_table.json numbers it, laid out as two bytes with the
high byte first (R38, R51). -/
def decodeTableWord (nbits w : Nat) : Option Instr :=
  match decodeBytes [highByte (tableWord nbits w), lowByte (tableWord nbits w)] with
  | .instr i _ => some i
  | _          => none

/-! ### Encoding: the six formats of R53 -/

/-- Format `NNN`: oooo NNNN NNNN NNNN. -/
def formatNNN (op : Nibble) (nnn : Addr12) : Word := op ++ nnn

/-- Format `XNN` (and `XFF`, with NN the selector byte): oooo XXXX NNNN NNNN. -/
def formatXNN (op : Nibble) (x : Reg) (nn : Byte) : Word := op ++ (BitVec.ofFin x : Nibble) ++ nn

/-- Formats `XYF` and `XYN`: oooo XXXX YYYY ffff. -/
def formatXYN (op : Nibble) (x y : Reg) (f : Nibble) : Word :=
  op ++ (BitVec.ofFin x : Nibble) ++ (BitVec.ofFin y : Nibble) ++ f

/-- The word of an instruction (R53, R62). -/
def encode : Instr → Word
  | .op00E0 => 0x00E0
  | .op00EE => 0x00EE
  | .op1NNN nnn => formatNNN 0x1 nnn
  | .op2NNN nnn => formatNNN 0x2 nnn
  | .op3XNN x nn => formatXNN 0x3 x nn
  | .op4XNN x nn => formatXNN 0x4 x nn
  | .op5XY0 x y => formatXYN 0x5 x y 0x0
  | .op6XNN x nn => formatXNN 0x6 x nn
  | .op7XNN x nn => formatXNN 0x7 x nn
  | .op8XY0 x y => formatXYN 0x8 x y 0x0
  | .op8XY1 x y => formatXYN 0x8 x y 0x1
  | .op8XY2 x y => formatXYN 0x8 x y 0x2
  | .op8XY3 x y => formatXYN 0x8 x y 0x3
  | .op8XY4 x y => formatXYN 0x8 x y 0x4
  | .op8XY5 x y => formatXYN 0x8 x y 0x5
  | .op8XY6 x y => formatXYN 0x8 x y 0x6
  | .op8XY7 x y => formatXYN 0x8 x y 0x7
  | .op8XYE x y => formatXYN 0x8 x y 0xE
  | .op9XY0 x y => formatXYN 0x9 x y 0x0
  | .opANNN nnn => formatNNN 0xA nnn
  | .opBNNN nnn => formatNNN 0xB nnn
  | .opCXNN x nn => formatXNN 0xC x nn
  | .opDXYN x y n => formatXYN 0xD x y (BitVec.ofFin n)
  | .opEX9E x => formatXNN 0xE x 0x9E
  | .opEXA1 x => formatXNN 0xE x 0xA1
  | .opFX07 x => formatXNN 0xF x 0x07
  | .opFX0A x => formatXNN 0xF x 0x0A
  | .opFX15 x => formatXNN 0xF x 0x15
  | .opFX18 x => formatXNN 0xF x 0x18
  | .opFX1E x => formatXNN 0xF x 0x1E
  | .opFX29 x => formatXNN 0xF x 0x29
  | .opFX33 x => formatXNN 0xF x 0x33
  | .opFX55 x => formatXNN 0xF x 0x55
  | .opFX65 x => formatXNN 0xF x 0x65

/-- The two bytes of an instruction, high byte first (R38). -/
def encodeBytes (i : Instr) : List Byte := [highByte (encode i), lowByte (encode i)]

/-! ### The opcode table (R62) -/

/-- A row of opcode_table.json: its mnemonic, mask and match. -/
structure OpRow where
  mnemonic : String
  mask     : Word
  pattern  : Word
deriving DecidableEq, Repr

/-- The row of an instruction. -/
def Instr.row : Instr → OpRow
  | .op00E0 => ⟨"00E0", 0xFFFF, 0x00E0⟩
  | .op00EE => ⟨"00EE", 0xFFFF, 0x00EE⟩
  | .op1NNN _ => ⟨"1NNN", 0xF000, 0x1000⟩
  | .op2NNN _ => ⟨"2NNN", 0xF000, 0x2000⟩
  | .op3XNN _ _ => ⟨"3XNN", 0xF000, 0x3000⟩
  | .op4XNN _ _ => ⟨"4XNN", 0xF000, 0x4000⟩
  | .op5XY0 _ _ => ⟨"5XY0", 0xF00F, 0x5000⟩
  | .op6XNN _ _ => ⟨"6XNN", 0xF000, 0x6000⟩
  | .op7XNN _ _ => ⟨"7XNN", 0xF000, 0x7000⟩
  | .op8XY0 _ _ => ⟨"8XY0", 0xF00F, 0x8000⟩
  | .op8XY1 _ _ => ⟨"8XY1", 0xF00F, 0x8001⟩
  | .op8XY2 _ _ => ⟨"8XY2", 0xF00F, 0x8002⟩
  | .op8XY3 _ _ => ⟨"8XY3", 0xF00F, 0x8003⟩
  | .op8XY4 _ _ => ⟨"8XY4", 0xF00F, 0x8004⟩
  | .op8XY5 _ _ => ⟨"8XY5", 0xF00F, 0x8005⟩
  | .op8XY6 _ _ => ⟨"8XY6", 0xF00F, 0x8006⟩
  | .op8XY7 _ _ => ⟨"8XY7", 0xF00F, 0x8007⟩
  | .op8XYE _ _ => ⟨"8XYE", 0xF00F, 0x800E⟩
  | .op9XY0 _ _ => ⟨"9XY0", 0xF00F, 0x9000⟩
  | .opANNN _ => ⟨"ANNN", 0xF000, 0xA000⟩
  | .opBNNN _ => ⟨"BNNN", 0xF000, 0xB000⟩
  | .opCXNN _ _ => ⟨"CXNN", 0xF000, 0xC000⟩
  | .opDXYN _ _ _ => ⟨"DXYN", 0xF000, 0xD000⟩
  | .opEX9E _ => ⟨"EX9E", 0xF0FF, 0xE09E⟩
  | .opEXA1 _ => ⟨"EXA1", 0xF0FF, 0xE0A1⟩
  | .opFX07 _ => ⟨"FX07", 0xF0FF, 0xF007⟩
  | .opFX0A _ => ⟨"FX0A", 0xF0FF, 0xF00A⟩
  | .opFX15 _ => ⟨"FX15", 0xF0FF, 0xF015⟩
  | .opFX18 _ => ⟨"FX18", 0xF0FF, 0xF018⟩
  | .opFX1E _ => ⟨"FX1E", 0xF0FF, 0xF01E⟩
  | .opFX29 _ => ⟨"FX29", 0xF0FF, 0xF029⟩
  | .opFX33 _ => ⟨"FX33", 0xF0FF, 0xF033⟩
  | .opFX55 _ => ⟨"FX55", 0xF0FF, 0xF055⟩
  | .opFX65 _ => ⟨"FX65", 0xF0FF, 0xF065⟩

/-- The rows of families 0 to 7. -/
def opcodeTableLow : List OpRow :=
  [Instr.op00E0, .op00EE, .op1NNN 0, .op2NNN 0, .op3XNN 0 0, .op4XNN 0 0, .op5XY0 0 0, .op6XNN 0 0, .op7XNN 0 0].map
    Instr.row

/-- The rows of family 8. -/
def opcodeTable8 : List OpRow :=
  [Instr.op8XY0 0 0, .op8XY1 0 0, .op8XY2 0 0, .op8XY3 0 0, .op8XY4 0 0, .op8XY5 0 0, .op8XY6 0 0, .op8XY7 0 0,
    .op8XYE 0 0].map Instr.row

/-- The rows of families 9 to E. -/
def opcodeTableHigh : List OpRow :=
  [Instr.op9XY0 0 0, .opANNN 0, .opBNNN 0, .opCXNN 0 0, .opDXYN 0 0 0, .opEX9E 0, .opEXA1 0].map Instr.row

/-- The rows of family F. -/
def opcodeTableF : List OpRow :=
  [Instr.opFX07 0, .opFX0A 0, .opFX15 0, .opFX18 0, .opFX1E 0, .opFX29 0, .opFX33 0, .opFX55 0, .opFX65 0].map Instr.row

/-- The opcode table: 34 rows (R62). -/
def opcodeTable : List OpRow := opcodeTableLow ++ opcodeTable8 ++ opcodeTableHigh ++ opcodeTableF

/-- A word is of a row: `w & mask == match` (R61). -/
def OpRow.fits (r : OpRow) (w : Word) : Bool := w &&& r.mask == r.pattern

end Sys2Proof
end

