-- ==== Sys2Proof/Config.lean ====
section
/-! DEFINITION. What the spec fixes as a number, the parameters it leaves OPEN, and the free values of its inputs
(00_scope.md R6). -/

namespace Sys2Proof

/-- `MEM_SIZE`: addresses 0x000 to 0xFFF (R6). -/
def memSize : Nat := 4096

/-- `PROGRAM_BASE`: the reset value of PC and the load address of a ROM (R6). -/
def programBase : Word := 0x200

/-- `ROM_MAX`: 4096 − 0x200 bytes (R6, R136). -/
def romMax : Nat := 3584

/-- `SHIFT_SOURCE`: which register 8XY6 and 8XYE shift (R3, R6, D30). -/
inductive ShiftSource
  | vx | vy
deriving DecidableEq, Repr

/-- `VF_WRITE_ORDER`: which write to VF survives when X = F (R6, R80, D4). -/
inductive VfWriteOrder
  | resultLast | flagLast
deriving DecidableEq, Repr

/-- The OPEN parameters of R6, "that the model takes as an argument". `fontBase` is a 12-bit address and `fontStride` a
number of bytes per glyph (D14). They ride in `State.params`, and no event changes them (log entry 8). -/
structure Params where
  shiftSource  : ShiftSource
  vfWriteOrder : VfWriteOrder
  fontBase     : Addr12
  fontStride   : Nat
deriving DecidableEq, Repr

/-- `FONT_BASE` at reset: OPEN, without a default (R6), so a free value (log entry 8). -/
opaque Config.fontBase : Addr12

/-- The level on `keys[15:0]` at the n-th sample, where the host's level is not known: a free value (R28, R138, U16; log
entry 5). -/
opaque Config.keySample : Nat → Keys

/-- The level on `rnd[7:0]` at the n-th sample, where the host's level is not known: a free value (R92, U4; log entry 5). -/
opaque Config.rndSample : Nat → Byte

/-- R6's defaults: `SHIFT_SOURCE = VX`, `VF_WRITE_ORDER = RESULT_LAST`, `FONT_STRIDE = 5`; `FONT_BASE` has none. -/
def Params.default : Params where
  shiftSource  := .vx
  vfWriteOrder := .resultLast
  fontBase     := Config.fontBase
  fontStride   := 5

end Sys2Proof
end

