-- ==== Sys2Proof/Machine/State.lean ====
section
/-! DEFINITION. The state of the CORE as plain data (10_state.md R13 to R27), what it has emitted (R29), what the host
presents to it (R28, R33), and the state after reset (R34, R133). -/

namespace Sys2Proof.Machine

/-- The two fatal conditions an instruction raises (60_exceptions.md R115, R116). Their entry is a NEXT state of the machine
(STATUS = HALTED with the cause recorded), so no step answers `Outcome.fault`; `faultOutcome` of Safety.lean reads the
fault from a halted state, as R117 asks: "For a model, HALTED with cause 1 or 2 is a fault outcome". -/
inductive Fault
  /-- raised by 2NNN with 16 entries in use (R71); safe: the machine halts as the spec says -/
  | stackOverflow
  /-- raised by 00EE with the stack empty (R69); safe: the machine halts as the spec says -/
  | stackUnderflow
deriving DecidableEq, Repr

/-- Why the model gives no next state. No instruction refuses. -/
inductive Refusal
  /-- raised by an arm of `exec` that has no meaning yet; safe; no arm of this model raises it -/
  | notModelled (mnemonic : String)
  /-- raised by a `load` event after the first step: "the model refuses it" (70_reset_and_hazards.md R136); safe -/
  | loadAfterFirstStep
  /-- raised by loading a ROM over 3584 bytes: "refused as a whole" (R136); safe -/
  | romTooLong
  /-- raised by a `pixel` query outside the grid: "refused (host duty)" (10_state.md R33); safe -/
  | pixelOutsideGrid
deriving DecidableEq, Repr

/-- The run status (10_state.md R24). -/
inductive Status
  | running | waiting | halted
deriving DecidableEq, Repr

/-- What `FAULT_CAUSE` holds (10_state.md R27). -/
inductive FaultCause
  | none | stackOverflow | stackUnderflow | cancelled
deriving DecidableEq, Repr

/-- What an event record's `code` holds (60_exceptions.md R115). -/
inductive EventCode
  | stackOverflow | stackUnderflow | cancelled | invalidOpcode | keyIndexRange
deriving DecidableEq, Repr

/-- A record of the event output stream (60_exceptions.md R119). -/
structure EventRecord where
  code : EventCode
  addr : Word
  info : Word
deriving DecidableEq, Repr

/-- The interface events the host issues (10_state.md R33). `keys` and `rnd` are the host's change of an input level. -/
inductive HostEvent
  | step
  | tick
  | keys (k : Keys)
  | rnd (b : Byte)
  | load (addr : Word) (b : Byte)
  | cancel
  | reset
deriving DecidableEq, Repr

/-- Memory as (address, byte) pairs in canonical form: addresses strictly rising below 4096, no byte equal to what an
unlisted address reads as (see `Memory.wf`). -/
abbrev Memory := List Host.Cell

/-- The display buffer, row by row: the pixel at column x of row y (10_state.md R23). -/
abbrev Framebuffer := Vector (Vector Bool 64) 32

/-- The state. The fields down to `faultAddr` are R13's table; `events` and `beeps` are what the CORE has emitted (R29);
`keys` and `rnd` are its inputs (R28, R33); the last four are the model's own (log entries 5, 6, 8 and 10). -/
structure State where
  v          : Vector Byte 16
  i          : Word
  pc         : Word
  stack      : Vector Word 16
  depth      : Fin 17
  dt         : Byte
  st         : Byte
  mem        : Memory
  fb         : Framebuffer
  status     : Status
  waitReg    : Reg
  keyPrev    : Keys
  faultCause : FaultCause
  faultAddr  : Word
  events     : List EventRecord
  beeps      : Nat
  keys       : Option Keys
  rnd        : Option Byte
  samples    : Nat
  pending    : List HostEvent
  stepped    : Bool
  params     : Params
deriving DecidableEq, Repr

/-- The stack pointer as the spec writes it, −1 for the empty stack (10_state.md R19): `depth` is SP + 1. -/
def State.sp (s : State) : Int := (s.depth.val : Int) - 1

/-- The machine right after reset (R34, R133): every item of R34's table at its value. The inputs are not known, no host
event is due, and no step has been issued (log entries 5, 6, 10). -/
def State.reset : State where
  v          := Vector.replicate 16 0
  i          := 0
  pc         := programBase
  stack      := Vector.replicate 16 0
  depth      := 0
  dt         := 0
  st         := 0
  mem        := []
  fb         := Vector.replicate 32 (Vector.replicate 64 false)
  status     := .running
  waitReg    := 0
  keyPrev    := 0
  faultCause := .none
  faultAddr  := 0
  events     := []
  beeps      := 0
  keys       := none
  rnd        := none
  samples    := 0
  pending    := []
  stepped    := false
  params     := Params.default

end Sys2Proof.Machine
end

