-- ==== Sys2Proof/Machine/Ops.lean ====
section
/-! DEFINITION. The named operations over memory, registers, PC, the stack, the display buffer and the outputs, and fault
entry, which every meaning uses. -/

namespace Sys2Proof.Machine

/-! ### Memory (10_state.md R22, 20_memory.md R35 to R42) -/

/-- What an unlisted address reads as: "memory zeroed" (R22, R34). -/
def Memory.unlisted : Byte := 0

/-- The byte at an address of the list. -/
def Memory.read : Memory → Nat → Byte
  | [], _ => Memory.unlisted
  | (a, b) :: rest, k => if a = k then b else Memory.read rest k

/-- A list without the address `k`. -/
def Memory.erase : Memory → Nat → Memory
  | [], _ => []
  | (a, b) :: rest, k => if a = k then Memory.erase rest k else (a, b) :: Memory.erase rest k

/-- A list with an entry put in before the first higher address. -/
def Memory.insert : Memory → Nat → Byte → Memory
  | [], k, b => [(k, b)]
  | (a, c) :: rest, k, b => if k < a then (k, b) :: (a, c) :: rest else (a, c) :: Memory.insert rest k b

/-- A list with the byte at address `k` set, in canonical form: writing what an unlisted address reads as removes the
entry. -/
def Memory.write (m : Memory) (k : Nat) (b : Byte) : Memory :=
  if b = Memory.unlisted then m.erase k else (m.erase k).insert k b

/-- Canonical from address `lo` on: rising, below 4096, and nothing listed that an unlisted address reads as. -/
def Memory.wfFrom : Nat → Memory → Bool
  | _, [] => true
  | lo, (a, b) :: rest => decide (lo ≤ a) && decide (a < memSize) && b != Memory.unlisted && Memory.wfFrom (a + 1) rest

/-- The canonical form. -/
def Memory.wf (m : Memory) : Bool := Memory.wfFrom 0 m

/-- Every computed address is reduced to 12 bits before the access (R37). -/
def maskAddr (a : Word) : Nat := (a &&& 0xFFF).toNat

/-- `MemRead(a, 1)` (00_scope.md R10). -/
def State.readByte (s : State) (a : Word) : Byte := s.mem.read (maskAddr a)

/-- `MemWrite(a, 1, v)` (00_scope.md R10). -/
def State.writeByte (s : State) (a : Word) (b : Byte) : State := { s with mem := s.mem.write (maskAddr a) b }

/-- The word at PC: two reads, each masked, the high byte first (R38, R39, 30_encoding.md R59). -/
def State.fetchWord (s : State) : Word := wordOfBytes (s.readByte s.pc) (s.readByte (s.pc + 1))

/-! ### Registers (10_state.md R14) -/

/-- `V[r]`. -/
def State.readV (s : State) (r : Reg) : Byte := s.v[r]

/-- `V[r] <- b`: no register is hardwired (R14). -/
def State.writeV (s : State) (r : Reg) (b : Byte) : State := { s with v := s.v.set r b }

/-! ### PC (10_state.md R17) -/

/-- The fetch advance PC <- (a + 2) mod 2^16 (30_encoding.md R60). -/
def State.advance (s : State) : State := { s with pc := s.pc + 2 }

/-- The address `a` of the instruction that is executing: PC holds a + 2 meanwhile (R17, R60). -/
def State.instrAddr (s : State) : Word := s.pc - 2

/-- A jump: PC <- target, stored unmasked (R17, 40_control_flow.md R78). -/
def State.jump (s : State) (target : Word) : State := { s with pc := target }

/-- The skip primitive: PC <- (PC + 2) mod 2^16 when the condition holds (40_control_flow.md R68). -/
def State.skipIf (s : State) (c : Bool) : State := { s with pc := if c then s.pc + 2 else s.pc }

/-! ### Outputs (10_state.md R29) -/

/-- `log Event(code, addr, info)`: append one record (60_exceptions.md R119). -/
def State.log (s : State) (code : EventCode) (addr info : Word) : State :=
  { s with events := s.events ++ [{ code := code, addr := addr, info := info }] }

/-- ST <- b, with one beep exactly when ST changes from nonzero to 0 (60_exceptions.md R127). -/
def State.setSound (s : State) (b : Byte) : State :=
  { s with st := b, beeps := if s.st ≠ 0 ∧ b = 0 then s.beeps + 1 else s.beeps }

/-- The code of STATUS (10_state.md R32). -/
def Status.code : Status → Nat
  | .running => 0
  | .waiting => 1
  | .halted  => 2

/-- The code in FAULT_CAUSE (60_exceptions.md R115). -/
def FaultCause.code : FaultCause → Nat
  | .none           => 0
  | .stackOverflow  => 1
  | .stackUnderflow => 2
  | .cancelled      => 3

/-- The code in an event record (60_exceptions.md R115). -/
def EventCode.code : EventCode → Nat
  | .stackOverflow  => 1
  | .stackUnderflow => 2
  | .cancelled      => 3
  | .invalidOpcode  => 4
  | .keyIndexRange  => 5

/-! ### Fault entry (60_exceptions.md R116), and the only way out (R117) -/

/-- What a fault records in FAULT_CAUSE. -/
def Fault.cause : Fault → FaultCause
  | .stackOverflow  => .stackOverflow
  | .stackUnderflow => .stackUnderflow

/-- What a fault logs. -/
def Fault.event : Fault → EventCode
  | .stackOverflow  => .stackOverflow
  | .stackUnderflow => .stackUnderflow

/-- HALTED with a cause and an address, and one event: the shape that fault entry (R116) and `cancel` (R118) share. -/
def State.halt (s : State) (cause : FaultCause) (code : EventCode) (addr info : Word) : State :=
  { s.log code addr info with status := .halted, faultCause := cause, faultAddr := addr }

/-- `raise Fault(f)` by the instruction word `w`: precise, to no handler; PC stays a + 2 (R116). -/
def State.raise (s : State) (f : Fault) (w : Word) : State := s.halt f.cause f.event s.instrAddr w

/-- The `reset` event, the only way out of HALTED (R117, R133): every state item to its reset value. What is no state of the
CORE stays: the host's inputs and its coming events, the parameters, and the model's sample counter (log entry 11). -/
def State.resetEvent (s : State) : State :=
  { State.reset with keys := s.keys, rnd := s.rnd, samples := s.samples, pending := s.pending, params := s.params }

/-! ### The stack (10_state.md R18, R19) -/

/-- Push: SP increments first, then `S[SP]` is written; with 16 entries in use there is nowhere to push
(40_control_flow.md R71). -/
def State.push (s : State) (a : Word) : Option State :=
  if h : s.depth.val < 16 then
    some { s with stack := s.stack.set s.depth.val a, depth := ⟨s.depth.val + 1, by omega⟩ }
  else none

/-- Pop: `S[SP]` is read, then SP decrements; the entry is not erased; an empty stack has nothing to pop
(R18, 40_control_flow.md R69). -/
def State.pop (s : State) : Option (Word × State) :=
  if h : 0 < s.depth.val then
    some (s.stack[s.depth.val - 1]'(by omega), { s with depth := ⟨s.depth.val - 1, by omega⟩ })
  else none

/-! ### The display buffer (10_state.md R23) -/

/-- The blank display. -/
def Framebuffer.blank : Framebuffer := Vector.replicate 32 (Vector.replicate 64 false)

/-- `FB[x][y]`. -/
def Framebuffer.pixel (fb : Framebuffer) (x : Fin 64) (y : Fin 32) : Bool := fb[y][x]

/-- `FB[x][y] <- FB[x][y] ^ 1` (43_display.md R103). -/
def Framebuffer.flip (fb : Framebuffer) (x : Fin 64) (y : Fin 32) : Framebuffer :=
  fb.set y (fb[y].set x (!fb[y][x]))

/-- The `pixel(x, y)` read port: refused outside the grid (R33, D31). -/
def State.pixelPort (s : State) (x y : Nat) : Except Refusal Bool :=
  if h : x < 64 ∧ y < 32 then .ok (s.fb.pixel ⟨x, h.1⟩ ⟨y, h.2⟩) else .error .pixelOutsideGrid

/-! ### The inputs (10_state.md R28, R33) -/

/-- The keypad sample of this step: the host's level, or a free value where it is not known (R28, R138). -/
def State.keySample (s : State) : Keys := s.keys.getD (Config.keySample s.samples)

/-- `draw RandomByte()`: the level on `rnd` in this step, or a free value where it is not known (00_scope.md R11, R92). -/
def State.rndByte (s : State) : Byte := s.rnd.getD (Config.rndSample s.samples)

end Sys2Proof.Machine
end

