-- ==== Sys2Proof/Machine/Operands.lean ====
section
/-! DEFINITION. The operand forms of the ISA: immediates, registers, the I-relative address, and the values an instruction
computes its effect from (30_encoding.md R54 to R57, 42_index_memory.md R99). All are read from the state before any write
(10_state.md R31). -/

namespace Sys2Proof.Machine

/-- `zext_16(NNN)` (R54). -/
def zext16 (nnn : Addr12) : Word := nnn.setWidth 16

/-- A byte zero-extended to the 16 bits of an event's `info` or of PC (R8, R76, R119). -/
def byteWord (b : Byte) : Word := b.setWidth 16

/-- The one data addressing mode: I + k, which the access masks to 12 bits (R99, 20_memory.md R37). -/
def State.indexAddr (s : State) (k : Nat) : Word := s.i + BitVec.ofNat 16 k

/-- The registers V0..VX that FX55 and FX65 name, in rising order (42_index_memory.md R97, R98). -/
def regsUpTo (x : Reg) : List Reg :=
  ([0, 1, 2, 3, 4, 5, 6, 7, 8, 9, 10, 11, 12, 13, 14, 15] : List Reg).take (x.val + 1)

/-- The shift source of 8XY6 and 8XYE (41_alu.md R89, R91). -/
def State.shiftSource (s : State) (x y : Reg) : Byte :=
  match s.params.shiftSource with
  | .vx => s.readV x
  | .vy => s.readV y

/-- The key index of EX9E and EXA1, where V[X] ≤ 15 (44_keypad_timers.md R106). -/
def State.keyIndex (s : State) (x : Reg) : Option (Fin 16) :=
  if h : (s.readV x).toNat < 16 then some ⟨(s.readV x).toNat, h⟩ else none

/-- The glyph address of FX29 for the digit V[X] & 0xF (42_index_memory.md R95). -/
def State.fontAddr (s : State) (x : Reg) : Word :=
  BitVec.ofNat 16 (s.params.fontBase.toNat + s.params.fontStride * (s.readV x &&& 0xF).toNat) &&& 0xFFF

/-- The hundreds digit, `v div 100` (42_index_memory.md R96). -/
def hundreds (b : Byte) : Byte := BitVec.ofNat 8 (b.toNat / 100)

/-- The tens digit, `(v div 10) mod 10` (R96). -/
def tens (b : Byte) : Byte := BitVec.ofNat 8 (b.toNat / 10 % 10)

/-- The ones digit, `v mod 10` (R96). -/
def ones (b : Byte) : Byte := BitVec.ofNat 8 (b.toNat % 10)

/-- The n rows of the sprite at I, top row first (43_display.md R103). -/
def State.spriteRows (s : State) (n : Fin 16) : List Byte :=
  (List.range n.val).map fun r => s.readByte (s.indexAddr r)

end Sys2Proof.Machine
end

