-- ==== Sys2Proof/Machine/Flags.lean ====
section
/-! DEFINITION. The ALU operations that set VF, each giving a result and a flag, and their write-back (41_alu.md R79, R80).
Each converts to numbers, computes exactly and narrows at the end. -/

namespace Sys2Proof.Machine

/-- An 8-bit result r and a 1-bit flag f (R80). -/
structure AluOut where
  result : Byte
  flag   : Bool
deriving DecidableEq, Repr

/-- The flag as VF holds it: 1 or 0. -/
def flagByte (f : Bool) : Byte := if f then 1 else 0

/-- Addition: the carry is 1 exactly when the unwrapped sum exceeds 255 (R79, R87). -/
def addCarry (a b : Byte) : AluOut :=
  let sum := a.toNat + b.toNat
  { result := BitVec.ofNat 8 (sum % 256), flag := decide (sum > 255) }

/-- Subtraction a − b: the flag is no-borrow, 1 exactly when a ≥ b (R79, R88, R90). -/
def subNoBorrow (a b : Byte) : AluOut :=
  { result := BitVec.ofNat 8 ((a.toNat + 256 - b.toNat) % 256), flag := decide (a.toNat ≥ b.toNat) }

/-- Logical shift right by one; the flag is the old bit 0 (R79, R89). -/
def shiftRight (a : Byte) : AluOut := { result := a >>> 1, flag := a.getLsbD 0 }

/-- Logical shift left by one; the flag is the old bit 7 (R79, R91). -/
def shiftLeft (a : Byte) : AluOut := { result := a <<< 1, flag := a.getLsbD 7 }

/-- Write-back of r and f: when X = F both target VF, and `VF_WRITE_ORDER` decides (R80). -/
def State.writeBack (s : State) (x : Reg) (o : AluOut) : State :=
  if x ≠ VF then (s.writeV x o.result).writeV VF (flagByte o.flag)
  else
    match s.params.vfWriteOrder with
    | .resultLast => s.writeV VF o.result
    | .flagLast   => s.writeV VF (flagByte o.flag)

end Sys2Proof.Machine
end

