-- ==== Sys2Proof/Machine/Alu.lean ====
section
/-! DEFINITION. Register loads and the ALU (41_alu.md). None of these changes PC further. -/

namespace Sys2Proof.Machine

/-- 6XNN: V[X] <- NN (R81). -/
def exec6XNN (x : Reg) (nn : Byte) (s : State) : Host.Outcome State Fault Refusal := .next (s.writeV x nn)

/-- 7XNN: V[X] <- (V[X] + NN) mod 256, no flag (R82). -/
def exec7XNN (x : Reg) (nn : Byte) (s : State) : Host.Outcome State Fault Refusal :=
  .next (s.writeV x (addCarry (s.readV x) nn).result)

/-- 8XY0: V[X] <- V[Y] (R83). -/
def exec8XY0 (x y : Reg) (s : State) : Host.Outcome State Fault Refusal := .next (s.writeV x (s.readV y))

/-- 8XY1: V[X] <- V[X] | V[Y] (R84). -/
def exec8XY1 (x y : Reg) (s : State) : Host.Outcome State Fault Refusal := .next (s.writeV x (s.readV x ||| s.readV y))

/-- 8XY2: V[X] <- V[X] & V[Y] (R85). -/
def exec8XY2 (x y : Reg) (s : State) : Host.Outcome State Fault Refusal := .next (s.writeV x (s.readV x &&& s.readV y))

/-- 8XY3: V[X] <- V[X] ^ V[Y] (R86). -/
def exec8XY3 (x y : Reg) (s : State) : Host.Outcome State Fault Refusal := .next (s.writeV x (s.readV x ^^^ s.readV y))

/-- 8XY4: V[X] + V[Y] with the carry in VF (R87). -/
def exec8XY4 (x y : Reg) (s : State) : Host.Outcome State Fault Refusal :=
  .next (s.writeBack x (addCarry (s.readV x) (s.readV y)))

/-- 8XY5: V[X] − V[Y] with no-borrow in VF (R88). -/
def exec8XY5 (x y : Reg) (s : State) : Host.Outcome State Fault Refusal :=
  .next (s.writeBack x (subNoBorrow (s.readV x) (s.readV y)))

/-- 8XY6: the shift source shifted right, the bit shifted out in VF (R89). -/
def exec8XY6 (x y : Reg) (s : State) : Host.Outcome State Fault Refusal :=
  .next (s.writeBack x (shiftRight (s.shiftSource x y)))

/-- 8XY7: V[Y] − V[X] into V[X] with no-borrow in VF (R90). -/
def exec8XY7 (x y : Reg) (s : State) : Host.Outcome State Fault Refusal :=
  .next (s.writeBack x (subNoBorrow (s.readV y) (s.readV x)))

/-- 8XYE: the shift source shifted left, the bit shifted out in VF (R91). -/
def exec8XYE (x y : Reg) (s : State) : Host.Outcome State Fault Refusal :=
  .next (s.writeBack x (shiftLeft (s.shiftSource x y)))

/-- CXNN: V[X] <- random byte & NN (R92). -/
def execCXNN (x : Reg) (nn : Byte) (s : State) : Host.Outcome State Fault Refusal := .next (s.writeV x (s.rndByte &&& nn))

end Sys2Proof.Machine
end

