-- ==== Sys2Proof/Machine/Control.lean ====
section
/-! DEFINITION. Control transfer (40_control_flow.md): return, jumps, call and the register skips. In every meaning PC is
a + 2 when execution begins (30_encoding.md R60). -/

namespace Sys2Proof.Machine

/-- 00EE: pop into PC; STACK_UNDERFLOW on an empty stack (R69). -/
def exec00EE (s : State) : Host.Outcome State Fault Refusal :=
  match s.pop with
  | some (target, t) => .next (t.jump target)
  | none             => .next (s.raise .stackUnderflow (encode .op00EE))

/-- 1NNN: PC <- NNN (R70). -/
def exec1NNN (nnn : Addr12) (s : State) : Host.Outcome State Fault Refusal := .next (s.jump (zext16 nnn))

/-- 2NNN: push PC, then PC <- NNN; STACK_OVERFLOW with 16 entries in use (R71). -/
def exec2NNN (nnn : Addr12) (s : State) : Host.Outcome State Fault Refusal :=
  match s.push s.pc with
  | some t => .next (t.jump (zext16 nnn))
  | none   => .next (s.raise .stackOverflow (encode (.op2NNN nnn)))

/-- 3XNN: skip if V[X] = NN (R72). -/
def exec3XNN (x : Reg) (nn : Byte) (s : State) : Host.Outcome State Fault Refusal := .next (s.skipIf (s.readV x == nn))

/-- 4XNN: skip if V[X] ≠ NN (R73). -/
def exec4XNN (x : Reg) (nn : Byte) (s : State) : Host.Outcome State Fault Refusal := .next (s.skipIf (s.readV x != nn))

/-- 5XY0: skip if V[X] = V[Y] (R74). -/
def exec5XY0 (x y : Reg) (s : State) : Host.Outcome State Fault Refusal := .next (s.skipIf (s.readV x == s.readV y))

/-- 9XY0: skip if V[X] ≠ V[Y] (R75). -/
def exec9XY0 (x y : Reg) (s : State) : Host.Outcome State Fault Refusal := .next (s.skipIf (s.readV x != s.readV y))

/-- BNNN: PC <- NNN + V0, stored unmasked (R76). -/
def execBNNN (nnn : Addr12) (s : State) : Host.Outcome State Fault Refusal :=
  .next (s.jump (zext16 nnn + byteWord (s.readV 0)))

end Sys2Proof.Machine
end

