-- ==== Sys2Proof/Machine/Display.lean ====
section
/-! DEFINITION. The display buffer instructions (43_display.md): clear, and the XOR-composited sprite with its collision
flag. -/

namespace Sys2Proof.Machine

/-- A drawing in progress: the display buffer and the collision flag c (R103). -/
structure Drawing where
  fb       : Framebuffer
  collided : Bool
deriving DecidableEq, Repr

/-- A sprite bit of value 1 on the pixel (x, y): a set pixel turns off and is a collision; the pixel is flipped (R103). -/
def Drawing.plot (d : Drawing) (x : Fin 64) (y : Fin 32) : Drawing :=
  { fb := d.fb.flip x y, collided := d.collided || d.fb.pixel x y }

/-- One bit of a sprite row at column offset b: bit 7 is the leftmost (R101), and each axis wraps on its own (R100). -/
def Drawing.bit (x0 y : Nat) (row : Byte) (d : Drawing) (b : Nat) : Drawing :=
  if row.getLsbD (7 - b) then d.plot (Fin.ofNat 64 (x0 + b)) (Fin.ofNat 32 y) else d

/-- One sprite row, its 8 bits from the left (R103). -/
def Drawing.row (d : Drawing) (x0 y : Nat) (row : Byte) : Drawing :=
  [0, 1, 2, 3, 4, 5, 6, 7].foldl (Drawing.bit x0 y row) d

/-- The sprite rows from line y down (R103). -/
def Drawing.rows (x0 : Nat) : Nat → List Byte → Drawing → Drawing
  | _, [], d => d
  | y, row :: rest, d => Drawing.rows x0 (y + 1) rest (d.row x0 y row)

/-- 00E0: every pixel <- 0 (R102). -/
def exec00E0 (s : State) : Host.Outcome State Fault Refusal := .next { s with fb := Framebuffer.blank }

/-- `drawSprite`: the N rows at I from (V[X] mod 64, V[Y] mod 32), on the display as it is, no collision yet (R100, R103). -/
def State.sprite (s : State) (x y : Reg) (n : Fin 16) : Drawing :=
  Drawing.rows ((s.readV x).toNat % 64) ((s.readV y).toNat % 32) (s.spriteRows n) { fb := s.fb, collided := false }

/-- DXYN: draw the sprite, then VF <- collision, always written (R103, R104). -/
def execDXYN (x y : Reg) (n : Fin 16) (s : State) : Host.Outcome State Fault Refusal :=
  .next ({ s with fb := (s.sprite x y n).fb }.writeV VF (flagByte (s.sprite x y n).collided))

end Sys2Proof.Machine
end

