-- ==== Sys2Proof/Machine/IndexMemory.lean ====
section
/-! DEFINITION. The index register and memory transfers (42_index_memory.md). I is never changed by an access (R99). -/

namespace Sys2Proof.Machine

/-- ANNN: I <- NNN (R93). -/
def execANNN (nnn : Addr12) (s : State) : Host.Outcome State Fault Refusal := .next { s with i := zext16 nnn }

/-- FX1E: I <- (I + V[X]) mod 4096, no flag (R94). -/
def execFX1E (x : Reg) (s : State) : Host.Outcome State Fault Refusal :=
  .next { s with i := BitVec.ofNat 16 ((s.i.toNat + (s.readV x).toNat) % 4096) }

/-- FX29: I <- the glyph address of the digit V[X] & 0xF (R95). -/
def execFX29 (x : Reg) (s : State) : Host.Outcome State Fault Refusal := .next { s with i := s.fontAddr x }

/-- FX33: the three decimal digits of V[X] to I, I + 1, I + 2 (R96). -/
def execFX33 (x : Reg) (s : State) : Host.Outcome State Fault Refusal :=
  let b := s.readV x
  .next (((s.writeByte (s.indexAddr 0) (hundreds b)).writeByte (s.indexAddr 1) (tens b)).writeByte (s.indexAddr 2) (ones b))

/-- `for k in 0 .. X: MemWrite(I + k, 1, V[k])` (R97). -/
def State.storeRegs (s : State) (x : Reg) : State :=
  (regsUpTo x).foldl (fun t k => t.writeByte (s.indexAddr k.val) (s.readV k)) s

/-- `for k in 0 .. X: V[k] <- MemRead(I + k, 1)` (R98). -/
def State.loadRegs (s : State) (x : Reg) : State :=
  (regsUpTo x).foldl (fun t k => t.writeV k (s.readByte (s.indexAddr k.val))) s

/-- FX55: V0..VX to I, …, I + X (R97). -/
def execFX55 (x : Reg) (s : State) : Host.Outcome State Fault Refusal := .next (s.storeRegs x)

/-- FX65: V0..VX from I, …, I + X (R98). -/
def execFX65 (x : Reg) (s : State) : Host.Outcome State Fault Refusal := .next (s.loadRegs x)

end Sys2Proof.Machine
end

