-- ==== Sys2Proof/Machine/KeypadTimers.lean ====
section
/-! DEFINITION. The keypad and timer instructions (44_keypad_timers.md) and the waiting step that completes FX0A. -/

namespace Sys2Proof.Machine

/-- The key index check of EX9E and EXA1: with V[X] > 15 log KEY_INDEX_RANGE and do nothing else; otherwise skip if the
key's sampled level is the wanted one (R106, R107, R108). -/
def State.skipOnKey (s : State) (x : Reg) (wanted : Bool) : State :=
  match s.keyIndex x with
  | some j => s.skipIf (s.keySample.getLsbD j.val == wanted)
  | none   => s.log .keyIndexRange s.instrAddr (byteWord (s.readV x))

/-- EX9E: skip if key V[X] is pressed (R107). -/
def execEX9E (x : Reg) (s : State) : Host.Outcome State Fault Refusal := .next (s.skipOnKey x true)

/-- EXA1: skip if key V[X] is not pressed (R108). -/
def execEXA1 (x : Reg) (s : State) : Host.Outcome State Fault Refusal := .next (s.skipOnKey x false)

/-- FX07: V[X] <- DT (R111). -/
def execFX07 (x : Reg) (s : State) : Host.Outcome State Fault Refusal := .next (s.writeV x s.dt)

/-- FX0A: wait, with the keys sampled now as the baseline (R109). -/
def execFX0A (x : Reg) (s : State) : Host.Outcome State Fault Refusal :=
  .next { s with waitReg := x, keyPrev := s.keySample, status := .waiting }

/-- FX15: DT <- V[X] (R112). -/
def execFX15 (x : Reg) (s : State) : Host.Outcome State Fault Refusal := .next { s with dt := s.readV x }

/-- FX18: ST <- V[X], with a beep if ST goes from nonzero to 0 (R113). -/
def execFX18 (x : Reg) (s : State) : Host.Outcome State Fault Refusal := .next (s.setSound (s.readV x))

/-- The lowest key that is 1 in a vector of keys, if any (R110). -/
def lowestKey (k : Keys) : Option (Fin 16) :=
  ([0, 1, 2, 3, 4, 5, 6, 7, 8, 9, 10, 11, 12, 13, 14, 15] : List (Fin 16)).find? fun j => k.getLsbD j.val

/-- The waiting step: a key that was up at the previous sample and is down now ends the wait; the lowest wins; the sample
becomes the baseline (R110). -/
def State.waitStep (s : State) : State :=
  let k := s.keySample
  match lowestKey (k &&& ~~~s.keyPrev) with
  | some j => { s.writeV s.waitReg (BitVec.ofNat 8 j.val) with status := .running, keyPrev := k }
  | none   => { s with keyPrev := k }

end Sys2Proof.Machine
end

