-- ==== Sys2Proof/WellFormed.lean ====
section
/-! DEFINITION. What is well formed. Every term of `Instr` is: its operand types hold exactly the values of the fields of
30_encoding.md R52, and "every 4-bit value is a valid register index" (R57). What CAN be ill formed on this hardware is a
WORD (an invalid opcode, R63) and three things the host hands over: a ROM image (R136), a font image (R137) and a pixel
query (R33, D31). Each has its check here, written from the spec's words and not from the decoder's tables. -/

namespace Sys2Proof

/-- Family 0 holds two whole words (R62): "every other 0xxx (includes the SYS form 0NNN)" is invalid. -/
def family0WellFormed (w : Word) : Bool := w == 0x00E0 || w == 0x00EE

/-- Families 5 and 9 have the selector w[3:0] = 0 (R62): 5XY1–5XYF and 9XY1–9XYF are invalid. -/
def family59WellFormed (w : Word) : Bool := w.extractLsb' 0 4 == 0#4

/-- Family 8 has the selectors 0..7 and E (R62): 8XY8–8XYD and 8XYF are invalid. -/
def family8WellFormed (w : Word) : Bool := w.extractLsb' 0 4 ≤ 7#4 || w.extractLsb' 0 4 == 0xE#4

/-- Family E has the selectors 9E and A1 (R62): "every other EXff" is invalid. -/
def familyEWellFormed (w : Word) : Bool := [0x9E#8, 0xA1#8].contains (w.extractLsb' 0 8)

/-- Family F has nine selectors (R62): "every other FXff" is invalid. -/
def familyFWellFormed (w : Word) : Bool :=
  [0x07#8, 0x0A#8, 0x15#8, 0x18#8, 0x1E#8, 0x29#8, 0x33#8, 0x55#8, 0x65#8].contains (w.extractLsb' 0 8)

/-- A word is one of the 34 instructions, family by family (R62). In the families not named every word is (R62: "none" in
the invalid column). -/
def wordWellFormed (w : Word) : Bool :=
  match w.extractLsb' 12 4 with
  | 0x0#4 => family0WellFormed w
  | 0x5#4 => family59WellFormed w
  | 0x8#4 => family8WellFormed w
  | 0x9#4 => family59WellFormed w
  | 0xE#4 => familyEWellFormed w
  | 0xF#4 => familyFWellFormed w
  | _     => true

/-- "A ROM longer than 3584 bytes is refused as a whole"; "an empty ROM is legal" (R136). -/
def romWellFormed (rom : List Byte) : Bool := rom.length ≤ romMax

/-- The host's font duty: 16 glyphs of `FONT_STRIDE` bytes each (R137). -/
def fontWellFormed (p : Params) (font : List Byte) : Bool := font.length == 16 * p.fontStride

/-- The `pixel` port is defined only for 0 ≤ x < 64, 0 ≤ y < 32 (R33, D31). -/
def pixelQueryWellFormed (x y : Nat) : Bool := x < 64 && y < 32

end Sys2Proof
end

