-- ==== Sys2Proof/Machine/HostEvents.lean ====
section
/-! DEFINITION. The interface events other than `step` (10_state.md R33): tick, cancel, load and the input levels, each atomic;
and the host's boot sequence (70_reset_and_hazards.md R135 to R138). -/

namespace Sys2Proof.Machine

/-- `tick`: nothing while HALTED; otherwise each timer down by 1, clamped at 0, with a beep when ST reaches 0
(60_exceptions.md R126, R127). -/
def State.tick (s : State) : State :=
  match s.status with
  | .halted => s
  | _ =>
    let t := { s with dt := if s.dt = 0 then 0 else s.dt - 1 }
    if s.st = 0 then t else t.setSound (s.st - 1)

/-- `cancel`: HALTED with cause CANCELLED at PC, in any status other than HALTED (60_exceptions.md R117, R118). -/
def State.cancel (s : State) : State :=
  match s.status with
  | .halted => s
  | _       => s.halt .cancelled .cancelled s.pc 0

/-- The host drives the keypad level; it changes only between events (10_state.md R28, R33). -/
def State.setKeys (s : State) (k : Keys) : State := { s with keys := some k }

/-- The host drives the random-byte level (R33, 41_alu.md R92). -/
def State.setRnd (s : State) (b : Byte) : State := { s with rnd := some b }

/-- `load(addr, byte)`: legal only between a reset and the first step after it, refused at any other time
(70_reset_and_hazards.md R136). -/
def State.load (s : State) (addr : Word) (b : Byte) : Host.Outcome State Fault Refusal :=
  if s.stepped then .refused .loadAfterFirstStep else .next (s.writeByte addr b)

/-- `load` events for consecutive bytes from an address on: byte j goes to address + j (R135, R136). -/
def State.loadBytes : Word → List Byte → State → Host.Outcome State Fault Refusal
  | _, [], s => .next s
  | a, b :: rest, s =>
    match s.load a b with
    | .next t    => State.loadBytes (a + 1) rest t
    | .fault r   => .fault r
    | .refused r => .refused r

/-- The ROM, from 0x200 on; over 3584 bytes it is refused as a whole (R136). -/
def State.loadRom (rom : List Byte) (s : State) : Host.Outcome State Fault Refusal :=
  if romWellFormed rom then State.loadBytes programBase rom s else .refused .romTooLong

/-- The boot sequence: reset, the font at `FONT_BASE`, the ROM, the keypad; steps follow (R135). -/
def State.boot (font rom : List Byte) (k : Keys) (s : State) : Host.Outcome State Fault Refusal :=
  match State.loadBytes (s.params.fontBase.setWidth 16) font s.resetEvent with
  | .next t =>
    match State.loadRom rom t with
    | .next u    => .next (u.setKeys k)
    | .fault r   => .fault r
    | .refused r => .refused r
  | .fault r   => .fault r
  | .refused r => .refused r

end Sys2Proof.Machine
end

