-- ==== Sys2Proof/Machine/Cycle.lean ====
section
/-! DEFINITION. The `step` event (30_encoding.md R58) and the application of any host event; Machine/Step.lean calls these. -/

namespace Sys2Proof.Machine

/-- A step has been issued (70_reset_and_hazards.md R136; log entry 10). -/
def State.markStepped (s : State) : State := { s with stepped := true }

/-- The start of a step that samples the inputs: one fresh sample (30_encoding.md R58; log entry 5). -/
def State.sampleInputs (s : State) : State := { s.markStepped with samples := s.samples + 1 }

/-- The execution of a word at the address PC − 2: its instruction, or for an invalid opcode one event and nothing else
(30_encoding.md R58, R63). -/
def execWord (w : Word) (s : State) : Host.Outcome State Fault Refusal :=
  match decodeWord w with
  | some i => exec i s
  | none   => .next (s.log .invalidOpcode s.instrAddr w)

/-- A RUNNING step: fetch, advance PC by 2, then decode and execute (30_encoding.md R58 to R60). -/
def runStep (s : State) : Host.Outcome State Fault Refusal := execWord s.fetchWord s.sampleInputs.advance

/-- One `step` event, by STATUS (30_encoding.md R58, 60_exceptions.md R124). -/
def stepEvent (s : State) : Host.Outcome State Fault Refusal :=
  match s.status with
  | .halted  => .next s.markStepped
  | .waiting => .next s.sampleInputs.waitStep
  | .running => runStep s

/-- One host event (10_state.md R33). -/
def hostEvent (e : HostEvent) (s : State) : Host.Outcome State Fault Refusal :=
  match e with
  | .step     => stepEvent s
  | .tick     => .next s.tick
  | .keys k   => .next (s.setKeys k)
  | .rnd b    => .next (s.setRnd b)
  | .load a b => s.load a b
  | .cancel   => .next s.cancel
  | .reset    => .next s.resetEvent

/-- A state with a word stored where the next fetch reads it, RUNNING, and with no host event before that fetch. -/
def State.placeWord (s : State) (w : Word) : State :=
  { (s.writeByte s.pc (highByte w)).writeByte (s.pc + 1) (lowByte w) with status := .running, pending := [] }

end Sys2Proof.Machine
end

