-- ==== Sys2Proof/Machine/Step.lean ====
section
/-! DEFINITION. One step of the machine: the next event the host issues (10_state.md R33), which is a `step` when `pending`
holds none (log entry 6); and placing a word for the next fetch. -/

namespace Sys2Proof.Machine

/-- The next event: the oldest one pending, or else a `step`. -/
def step (s : State) : Host.Outcome State Fault Refusal :=
  match s.pending with
  | []        => stepEvent s
  | e :: rest => hostEvent e { s with pending := rest }

/-- `s` with an opcode-table word stored where `step` fetches its next instruction (log entry 14). -/
def State.withFetchWord (s : State) (nbits w : Nat) : State := s.placeWord (tableWord nbits w)

end Sys2Proof.Machine
end

