-- ==== Sys2Proof/Safety.lean ====
section
/-! DEFINITION. What counts as a safe run (70_reset_and_hazards.md R147, 60_exceptions.md R117). -/

namespace Sys2Proof.Machine

/-- The fault outcome of a state: "HALTED with cause 1 or 2 is a fault outcome and never a successful end of run" (R117). -/
def faultOutcome (s : State) : Option Fault :=
  match s.status, s.faultCause with
  | .halted, .stackOverflow  => some .stackOverflow
  | .halted, .stackUnderflow => some .stackUnderflow
  | _, _ => none

/-- A run has ended by `cancel`, "the normal, host-chosen end" (R147). -/
def cancelled (s : State) : Bool := s.status == .halted && s.faultCause == .cancelled

/-- No state of the next `n` events is a fault outcome, and no event is refused. -/
def SafeFor : Nat → State → Prop
  | 0, s => faultOutcome s = none
  | n + 1, s => faultOutcome s = none ∧ ∃ t, step s = .next t ∧ SafeFor n t

end Sys2Proof.Machine
end

