-- ==== Sys2Proof/Certificates/Slice0/Obligations.lean ====
section
/-! DEFINITION. The statements for the provers, from the numbered rules of spec/. In the statements about `exec`, `s` is the
state whose PC has already advanced past the instruction (PC = a + 2, 30_encoding.md R60); in those about `step`, PC is the
instruction's own address. A next state is written as the old one with the fields that change, so each equation is the
result and the frame at once (10_state.md R30). Operands and addresses are written here as arithmetic on numbers, apart from
the decoder's and the operations' own functions. -/

namespace Sys2Proof.Statements

open Sys2Proof Sys2Proof.Machine

/-! ### The vocabulary of the statements -/

/-- X = w[11:8] (R52). -/
def bitsX (w : Word) : Reg := Fin.ofNat 16 (w.toNat / 256)

/-- Y = w[7:4] (R52). -/
def bitsY (w : Word) : Reg := Fin.ofNat 16 (w.toNat / 16)

/-- N = w[3:0] (R52). -/
def bitsN (w : Word) : Fin 16 := Fin.ofNat 16 w.toNat

/-- NN = w[7:0] (R52). -/
def bitsNN (w : Word) : Byte := BitVec.ofNat 8 w.toNat

/-- NNN = w[11:0] (R52). -/
def bitsNNN (w : Word) : Addr12 := BitVec.ofNat 12 w.toNat

/-- Every word of an opcode-table row decodes to the row's instruction with the operands its bits give (R61). -/
def RowDecodes (mask pattern : Word) (i : Word → Instr) : Prop :=
  ∀ w : Word, w &&& mask = pattern → decodeWord w = some (i w)

/-- The host event the next step applies: the oldest pending one, or a `step` where none is pending (log entry 6). -/
def nextEvent (s : State) : HostEvent := s.pending.head?.getD .step

/-- The machine is about to fetch: RUNNING, and the host's next event is a `step`, be it the one issued where nothing is pending
or the first of a queue. -/
def Ready (s : State) : Prop := s.status = .running ∧ nextEvent s = .step

/-- A state at a `step` event's execution: PC past the instruction, and the model's own bookkeeping done: the event is taken from
the queue, and the step and its sample are counted (log entries 5, 6 and 10). -/
def fetched (s : State) : State :=
  { s with pc := s.pc + 2, stepped := true, samples := s.samples + 1, pending := s.pending.tail }

/-- The byte of memory at I + k (R99): masked to 12 bits. -/
def atIndex (s : State) (k : Nat) : Nat := (s.i.toNat + k) % 4096

/-- What a flag-setting instruction writes (R80): the result r and the flag f, one order or the other when X = F, and
nothing else. -/
def WritesFlagged (s t : State) (x : Reg) (r f : Byte) : Prop :=
  (∀ k : Reg, k ≠ x → k ≠ 15 → t.v[k] = s.v[k]) ∧
  (x ≠ 15 → t.v[x] = r ∧ t.v[(15 : Reg)] = f) ∧
  (x = 15 → s.params.vfWriteOrder = .resultLast → t.v[(15 : Reg)] = r) ∧
  (x = 15 → s.params.vfWriteOrder = .flagLast → t.v[(15 : Reg)] = f) ∧
  t = { s with v := t.v }

/-- A 1-bit condition as VF holds it. -/
def bit (p : Prop) [Decidable p] : Byte := if p then 1 else 0

/-- The register 8XY6 and 8XYE shift, as a number (R89, R91). -/
def shifted (s : State) (x y : Reg) : Nat :=
  if s.params.shiftSource = .vx then s.v[x].toNat else s.v[y].toNat

/-- The sprite bit over the pixel (px, py) of DXYN (R100, R101, R103): false where the sprite does not reach. -/
def spriteBit (s : State) (x y : Reg) (n : Fin 16) (px : Fin 64) (py : Fin 32) : Bool :=
  let dx := (px.val + 64 - s.v[x].toNat % 64) % 64
  let dy := (py.val + 32 - s.v[y].toNat % 32) % 32
  decide (dx < 8) && decide (dy < n.val) && (s.mem.read (atIndex s dy)).getLsbD (7 - dx)

/-- Some 1 bit of the sprite lies on a pixel that is 1 (R103). -/
def Collides (s : State) (x y : Reg) (n : Fin 16) : Prop :=
  ∃ (px : Fin 64) (py : Fin 32), spriteBit s x y n px py = true ∧ s.fb[py][px] = true

/-- Two states that differ at most in stack entries above SP (R18). -/
def SameBelowSP (s t : State) : Prop :=
  t = { s with stack := t.stack } ∧ ∀ k : Fin 16, k.val < s.depth.val → t.stack[k] = s.stack[k]

/-- Two states that differ at most in ST and in the beeps emitted (R21). -/
def SameButSound (s t : State) : Prop := t = { s with st := t.st, beeps := t.beeps }

/-- The invariant: memory canonical and within 4096 bytes (R22), I < 0x1000 (R16), HALTED exactly when a cause is recorded,
no address recorded without one (R27), WAITING only after a step (R136), and a halted machine's last event is the fault or
cancellation it records (R116, R118). -/
structure Inv (s : State) : Prop where
  memory  : s.mem.wf = true
  index   : s.i.toNat < 4096
  cause   : s.status = .halted ↔ s.faultCause ≠ .none
  address : s.faultCause = .none → s.faultAddr = 0
  waiting : s.status = .waiting → s.stepped = true
  logged  : s.status = .halted →
    ∃ r, s.events.getLast? = some r ∧ r.code.code = s.faultCause.code ∧ r.addr = s.faultAddr

/-- The instructions that name VF as an ordinary destination (R15). FX0A is not among them: it writes when the wait ends. -/
def namesVF : Instr → Bool
  | .op6XNN x _ | .op7XNN x _ | .op8XY0 x _ | .op8XY1 x _ | .op8XY2 x _ | .op8XY3 x _ | .opCXNN x _ | .opFX07 x
  | .opFX65 x => x == 15
  | _ => false

/-- The six instructions that write VF as a side effect (R15). -/
def setsVF : Instr → Bool
  | .op8XY4 _ _ | .op8XY5 _ _ | .op8XY6 _ _ | .op8XY7 _ _ | .op8XYE _ _ | .opDXYN _ _ _ => true
  | _ => false

/-- Every item of R34's table at its reset value. -/
structure AtReset (s : State) : Prop where
  v          : ∀ r : Reg, s.v[r] = 0
  i          : s.i = 0
  pc         : s.pc = 0x200
  sp         : s.sp = -1
  stack      : ∀ k : Fin 16, s.stack[k] = 0
  dt         : s.dt = 0
  st         : s.st = 0
  mem        : ∀ a, s.mem.read a = 0
  fb         : ∀ (x : Fin 64) (y : Fin 32), s.fb[y][x] = false
  status     : s.status = .running
  waitReg    : s.waitReg = 0
  keyPrev    : s.keyPrev = 0
  faultCause : s.faultCause = .none
  faultAddr  : s.faultAddr = 0
  events     : s.events = []

end Sys2Proof.Statements

open Sys2Proof Sys2Proof.Machine Sys2Proof.Statements

/-! ### Encoding and decoding -/

/-- 30_encoding.md R61, R62: the words of the spec's own examples, read as the instruction each stands for. -/
def Obligations.SpecWordsDecode : Prop :=
  decodeWord 0x00E0 = some .op00E0 ∧ decodeWord 0x1204 = some (.op1NNN 0x204) ∧
  decodeWord 0x3210 = some (.op3XNN 2 0x10) ∧ decodeWord 0x8014 = some (.op8XY4 0 1) ∧
  decodeWord 0xA21C = some (.opANNN 0x21C) ∧ decodeWord 0xC30F = some (.opCXNN 3 0x0F) ∧
  decodeWord 0xD015 = some (.opDXYN 0 1 5) ∧ decodeWord 0xE19E = some (.opEX9E 1) ∧
  decodeWord 0xF265 = some (.opFX65 2) ∧ decodeWord 0x5011 = none

/-- Decode and encode agree: decoding an instruction's word gives the instruction, for all 34 and every operand value. -/
def Obligations.DecodeOfEncode : Prop := ∀ i : Instr, decodeWord (encode i) = some i

/-- Every word has one meaning: a word that decodes is the encoding of what it decodes to. -/
def Obligations.EncodeOfDecode : Prop := ∀ (w : Word) (i : Instr), decodeWord w = some i → encode i = w

/-- 30_encoding.md R61, R62: a word decodes exactly when it fits a row of the opcode table, and the instruction is of that row.
The third clause, that no word fits two rows, is R61's sentence "At most one row matches any word", which the spec marks as its
own inference from the table of R62. -/
def Obligations.DecodesByOpcodeTable : Prop :=
  (∀ (w : Word) (i : Instr), decodeWord w = some i → i.row ∈ opcodeTable ∧ w &&& i.row.mask = i.row.pattern) ∧
  (∀ (w : Word) (r : OpRow), r ∈ opcodeTable → w &&& r.mask = r.pattern → ∃ i, decodeWord w = some i ∧ i.row = r) ∧
  (∀ (w : Word) (r r' : OpRow), r ∈ opcodeTable → r' ∈ opcodeTable →
    w &&& r.mask = r.pattern → w &&& r'.mask = r'.pattern → r = r')

/-- 30_encoding.md R62's invalid columns, family by family, are exactly the words that do not decode. -/
def Obligations.InvalidColumnsAreExact : Prop := ∀ w : Word, (decodeWord w).isSome = wordWellFormed w

/-- Two bytes are consumed, whatever they are, and the rest is left (30_encoding.md R51); an instruction's two bytes decode
to it. -/
def Obligations.DecodeConsumesTwoBytes : Prop :=
  (∀ (hi lo : Byte) (rest : List Byte),
    (∃ i, decodeBytes (hi :: lo :: rest) = .instr i rest) ∨
    decodeBytes (hi :: lo :: rest) = .invalidOpcode (BitVec.ofNat 16 (hi.toNat * 256 + lo.toNat)) rest) ∧
  (∀ (i : Instr) (rest : List Byte), decodeBytes (encodeBytes i ++ rest) = .instr i rest)

/-! ### The step cycle -/

/-- 20_memory.md R38, R39: the fetched word is two bytes, each address masked on its own, the first the high byte. -/
def Obligations.FetchIsBigEndian : Prop :=
  ∀ s : State, s.fetchWord.toNat =
    (s.mem.read (s.pc.toNat % 4096)).toNat * 256 + (s.mem.read ((s.pc.toNat + 1) % 4096)).toNat

/-- A `step` fetches the word at PC, advances PC by 2 and executes the decoded instruction (30_encoding.md R58 to R60), both where
no event is pending and where a `step` stands first in the queue (`Ready`). What `fetched` does beside the PC advance (`pending`,
`stepped`, `samples`) is the model's own bookkeeping (log entries 5, 6 and 10). -/
def Obligations.StepRunsDecodedInstruction : Prop :=
  ∀ (s : State) (i : Instr), Ready s → decodeWord s.fetchWord = some i → step s = exec i (fetched s)

/-- A word placed by `withFetchWord` is what the next step runs (log entry 14). -/
def Obligations.PlacedWordRunsNext : Prop :=
  ∀ (s : State) (w : Nat) (i : Instr), w < 65536 → decodeWord (BitVec.ofNat 16 w) = some i →
    decodeTableWord 16 w = some i ∧ step (s.withFetchWord 16 w) = exec i (fetched (s.withFetchWord 16 w))

/-- 30_encoding.md R63, 60_exceptions.md R120: a word of no row advances PC, logs one record and does nothing else,
with the queue empty or a `step` first in it. The rest of `fetched` is the model's bookkeeping (log entries 5, 6 and 10). -/
def Obligations.InvalidOpcodeOnlyLogs : Prop :=
  ∀ s : State, Ready s → (∀ r ∈ opcodeTable, s.fetchWord &&& r.mask ≠ r.pattern) →
    step s = .next { fetched s with events := s.events ++ [⟨.invalidOpcode, s.pc, s.fetchWord⟩] }

/-- `exec` answers a next state for every instruction in every state. R129 (60_exceptions.md) says that every instruction may execute
at any time; that it then has a next state is the model's choice in two places: 00EE on the empty stack and 2NNN with 16 entries in
use fault (R116), and that is a next state here (log entry 4); and `exec` does not look at STATUS, so the statement speaks also of
states in which no step runs an instruction (log entry 13). -/
def Obligations.EveryInstructionCompletes : Prop := ∀ (i : Instr) (s : State), ∃ t, exec i s = .next t

/-- The only event the model answers with a refusal is a `load` after the first step (70_reset_and_hazards.md R136; that a refusal
has no next state is log entry 12), and `step` never answers `Outcome.fault`: the stack faults of 60_exceptions.md R116 and R117
are next states in this model, which is its own choice (log entry 4). -/
def Obligations.OnlyLateLoadIsRefused : Prop :=
  ∀ s : State, (∃ t, step s = .next t) ∨
    (step s = .refused .loadAfterFirstStep ∧ s.stepped = true ∧ ∃ a b rest, s.pending = .load a b :: rest)

/-! ### Control transfer -/

/-- 40_control_flow.md R70, R76: jumps; BNNN adds V0 and stores the sum unmasked. -/
def Obligations.JumpTargets : Prop :=
  (∀ nnn s, exec (.op1NNN nnn) s = .next { s with pc := BitVec.ofNat 16 nnn.toNat }) ∧
  RowDecodes 0xF000 0x1000 (fun w => .op1NNN (bitsNNN w)) ∧
  (∀ nnn s, exec (.opBNNN nnn) s = .next { s with pc := BitVec.ofNat 16 (nnn.toNat + s.v[(0 : Reg)].toNat) }) ∧
  RowDecodes 0xF000 0xB000 (fun w => .opBNNN (bitsNNN w))

/-- 40_control_flow.md R71: SP increments, the return address PC = a + 2 is stored at the new SP, and PC is NNN; with 16
entries in use the call faults, with the record of R116 (60_exceptions.md); that this fault is a next state, where R117 speaks of a
fault outcome, is the model's choice (log entry 4). -/
def Obligations.CallPushesReturnAddress : Prop :=
  (∀ nnn (s : State) (h : s.depth.val < 16), exec (.op2NNN nnn) s =
    .next { s with depth := ⟨s.depth.val + 1, by omega⟩, stack := s.stack.set s.depth.val s.pc,
                   pc := BitVec.ofNat 16 nnn.toNat }) ∧
  (∀ nnn (s : State), s.depth = 16 → exec (.op2NNN nnn) s =
    .next { s with status := .halted, faultCause := .stackOverflow, faultAddr := s.pc - 2,
                   events := s.events ++ [⟨.stackOverflow, s.pc - 2, BitVec.ofNat 16 (0x2000 + nnn.toNat)⟩] }) ∧
  RowDecodes 0xF000 0x2000 (fun w => .op2NNN (bitsNNN w))

/-- 40_control_flow.md R69: PC is the entry at SP, SP decrements, the entry stays; on an empty stack the return faults,
with the record of R116 (60_exceptions.md); that this fault is a next state, where R117 speaks of a fault outcome, is the model's
choice (log entry 4). -/
def Obligations.ReturnPopsReturnAddress : Prop :=
  (∀ (s : State) (h : 0 < s.depth.val), exec .op00EE s =
    .next { s with pc := s.stack[s.depth.val - 1], depth := ⟨s.depth.val - 1, by omega⟩ }) ∧
  (∀ s : State, s.depth = 0 → exec .op00EE s =
    .next { s with status := .halted, faultCause := .stackUnderflow, faultAddr := s.pc - 2,
                   events := s.events ++ [⟨.stackUnderflow, s.pc - 2, 0x00EE⟩] }) ∧
  RowDecodes 0xFFFF 0x00EE (fun _ => .op00EE)

/-- A return undoes a call (40_control_flow.md R77): execution resumes at the word after the call with the depth before it,
whatever ran at the target in between left PC at. -/
def Obligations.ReturnUndoesCall : Prop :=
  ∀ (s : State) (nnn : Addr12) (a : Word), s.depth.val < 16 →
    ∃ t, exec (.op2NNN nnn) s = .next t ∧
      ∃ u, exec .op00EE { t with pc := a } = .next u ∧ u = { s with stack := u.stack } ∧
        ∀ k : Fin 16, k.val < s.depth.val → u.stack[k] = s.stack[k]

/-- 60_exceptions.md R116: fault entry, seen from the step that raises it: HALTED, the cause, the instruction's own address,
one record with its address and word; the rest as before, with PC past the instruction, with the queue empty or a `step` first in
it. That the step answers a next state is the model's choice (log entry 4), and the rest of `fetched` is the model's bookkeeping (log entries 5, 6 and 10). -/
def Obligations.StackFaultEntry : Prop :=
  (∀ s : State, Ready s → s.fetchWord &&& 0xF000 = 0x2000 → s.depth = 16 →
    step s = .next { fetched s with
      status := .halted, faultCause := .stackOverflow, faultAddr := s.pc,
      events := s.events ++ [⟨.stackOverflow, s.pc, s.fetchWord⟩] }) ∧
  (∀ s : State, Ready s → s.fetchWord = 0x00EE → s.depth = 0 →
    step s = .next { fetched s with
      status := .halted, faultCause := .stackUnderflow, faultAddr := s.pc,
      events := s.events ++ [⟨.stackUnderflow, s.pc, s.fetchWord⟩] })

/-- 40_control_flow.md R68, R72, R73: skips on an immediate, by exactly 2 and changing nothing but PC. -/
def Obligations.SkipsOnImmediate : Prop :=
  (∀ x nn s, exec (.op3XNN x nn) s = .next { s with pc := if s.v[x] = nn then s.pc + 2 else s.pc }) ∧
  RowDecodes 0xF000 0x3000 (fun w => .op3XNN (bitsX w) (bitsNN w)) ∧
  (∀ x nn s, exec (.op4XNN x nn) s = .next { s with pc := if s.v[x] = nn then s.pc else s.pc + 2 }) ∧
  RowDecodes 0xF000 0x4000 (fun w => .op4XNN (bitsX w) (bitsNN w))

/-- 40_control_flow.md R68, R74, R75: skips on two registers. -/
def Obligations.SkipsOnRegisters : Prop :=
  (∀ x y s, exec (.op5XY0 x y) s = .next { s with pc := if s.v[x] = s.v[y] then s.pc + 2 else s.pc }) ∧
  RowDecodes 0xF00F 0x5000 (fun w => .op5XY0 (bitsX w) (bitsY w)) ∧
  (∀ x y s, exec (.op9XY0 x y) s = .next { s with pc := if s.v[x] = s.v[y] then s.pc else s.pc + 2 }) ∧
  RowDecodes 0xF00F 0x9000 (fun w => .op9XY0 (bitsX w) (bitsY w))

/-! ### Register loads and the ALU -/

/-- 41_alu.md R81, R82: load immediate, and the wrapping add that sets no flag. -/
def Obligations.ImmediateLoadAndAdd : Prop :=
  (∀ x nn s, exec (.op6XNN x nn) s = .next { s with v := s.v.set x nn }) ∧
  RowDecodes 0xF000 0x6000 (fun w => .op6XNN (bitsX w) (bitsNN w)) ∧
  (∀ x nn s, exec (.op7XNN x nn) s =
    .next { s with v := s.v.set x (BitVec.ofNat 8 ((s.v[x].toNat + nn.toNat) % 256)) }) ∧
  RowDecodes 0xF000 0x7000 (fun w => .op7XNN (bitsX w) (bitsNN w))

/-- 41_alu.md R83 to R86: copy, OR, AND, XOR; bit by bit, and no flag. -/
def Obligations.CopyAndBitwise : Prop :=
  (∀ x y s, exec (.op8XY0 x y) s = .next { s with v := s.v.set x s.v[y] }) ∧
  RowDecodes 0xF00F 0x8000 (fun w => .op8XY0 (bitsX w) (bitsY w)) ∧
  (∀ x y s, ∃ r : Byte, exec (.op8XY1 x y) s = .next { s with v := s.v.set x r } ∧
    ∀ b, r.getLsbD b = (s.v[x].getLsbD b || s.v[y].getLsbD b)) ∧
  RowDecodes 0xF00F 0x8001 (fun w => .op8XY1 (bitsX w) (bitsY w)) ∧
  (∀ x y s, ∃ r : Byte, exec (.op8XY2 x y) s = .next { s with v := s.v.set x r } ∧
    ∀ b, r.getLsbD b = (s.v[x].getLsbD b && s.v[y].getLsbD b)) ∧
  RowDecodes 0xF00F 0x8002 (fun w => .op8XY2 (bitsX w) (bitsY w)) ∧
  (∀ x y s, ∃ r : Byte, exec (.op8XY3 x y) s = .next { s with v := s.v.set x r } ∧
    ∀ b, r.getLsbD b = xor (s.v[x].getLsbD b) (s.v[y].getLsbD b)) ∧
  RowDecodes 0xF00F 0x8003 (fun w => .op8XY3 (bitsX w) (bitsY w))

/-- 41_alu.md R80, R87: the sum mod 256, and VF = 1 exactly when the unwrapped sum exceeds 255. -/
def Obligations.AddSetsCarry : Prop :=
  (∀ x y (s : State), ∃ t, exec (.op8XY4 x y) s = .next t ∧
    WritesFlagged s t x (BitVec.ofNat 8 ((s.v[x].toNat + s.v[y].toNat) % 256))
      (bit (s.v[x].toNat + s.v[y].toNat > 255))) ∧
  RowDecodes 0xF00F 0x8004 (fun w => .op8XY4 (bitsX w) (bitsY w))

/-- 41_alu.md R80, R88, R90: the difference mod 256, and VF = 1 exactly when there is no borrow; 8XY7 subtracts the other
way round, into VX. -/
def Obligations.SubtractSetsNoBorrow : Prop :=
  (∀ x y (s : State), ∃ t, exec (.op8XY5 x y) s = .next t ∧
    WritesFlagged s t x (BitVec.ofInt 8 ((s.v[x].toNat : Int) - s.v[y].toNat)) (bit (s.v[x].toNat ≥ s.v[y].toNat))) ∧
  RowDecodes 0xF00F 0x8005 (fun w => .op8XY5 (bitsX w) (bitsY w)) ∧
  (∀ x y (s : State), ∃ t, exec (.op8XY7 x y) s = .next t ∧
    WritesFlagged s t x (BitVec.ofInt 8 ((s.v[y].toNat : Int) - s.v[x].toNat)) (bit (s.v[y].toNat ≥ s.v[x].toNat))) ∧
  RowDecodes 0xF00F 0x8007 (fun w => .op8XY7 (bitsX w) (bitsY w))

/-- 41_alu.md R80, R89, R91: shifts by one of the shift source, VF the bit shifted out, under either value of
`SHIFT_SOURCE`. -/
def Obligations.ShiftsSetBitShiftedOut : Prop :=
  (∀ x y (s : State), ∃ t, exec (.op8XY6 x y) s = .next t ∧
    WritesFlagged s t x (BitVec.ofNat 8 (shifted s x y / 2)) (bit (shifted s x y % 2 = 1))) ∧
  RowDecodes 0xF00F 0x8006 (fun w => .op8XY6 (bitsX w) (bitsY w)) ∧
  (∀ x y (s : State), ∃ t, exec (.op8XYE x y) s = .next t ∧
    WritesFlagged s t x (BitVec.ofNat 8 (shifted s x y * 2 % 256)) (bit (shifted s x y ≥ 128))) ∧
  RowDecodes 0xF00F 0x800E (fun w => .op8XYE (bitsX w) (bitsY w))

/-- 41_alu.md R92: V[X] is a byte AND NN, for some byte; and for the byte the host presents, where it presents one. -/
def Obligations.RandomByteMasked : Prop :=
  (∀ x nn (s : State), ∃ b : Byte, exec (.opCXNN x nn) s = .next { s with v := s.v.set x (b &&& nn) } ∧
    ∀ b', s.rnd = some b' → b = b') ∧
  RowDecodes 0xF000 0xC000 (fun w => .opCXNN (bitsX w) (bitsNN w))

/-! ### Index register and memory -/

/-- 42_index_memory.md R93, R94, R95: the three writers of I. -/
def Obligations.IndexWriters : Prop :=
  (∀ nnn s, exec (.opANNN nnn) s = .next { s with i := BitVec.ofNat 16 nnn.toNat }) ∧
  RowDecodes 0xF000 0xA000 (fun w => .opANNN (bitsNNN w)) ∧
  (∀ x s, exec (.opFX1E x) s = .next { s with i := BitVec.ofNat 16 ((s.i.toNat + s.v[x].toNat) % 4096) }) ∧
  RowDecodes 0xF0FF 0xF01E (fun w => .opFX1E (bitsX w)) ∧
  (∀ x s, exec (.opFX29 x) s =
    .next { s with
      i := BitVec.ofNat 16 ((s.params.fontBase.toNat + s.params.fontStride * (s.v[x].toNat % 16)) % 4096) }) ∧
  RowDecodes 0xF0FF 0xF029 (fun w => .opFX29 (bitsX w))

/-- 42_index_memory.md R96: the three decimal digits at I, I + 1, I + 2, and no other byte. -/
def Obligations.DecimalDigitsStored : Prop :=
  (∀ x (s : State), ∃ t, exec (.opFX33 x) s = .next t ∧
    (t.mem.read (atIndex s 0)).toNat = s.v[x].toNat / 100 ∧
    (t.mem.read (atIndex s 1)).toNat = s.v[x].toNat / 10 % 10 ∧
    (t.mem.read (atIndex s 2)).toNat = s.v[x].toNat % 10 ∧
    (∀ a, a ≠ atIndex s 0 → a ≠ atIndex s 1 → a ≠ atIndex s 2 → t.mem.read a = s.mem.read a) ∧
    t = { s with mem := t.mem }) ∧
  RowDecodes 0xF0FF 0xF033 (fun w => .opFX33 (bitsX w))

/-- 42_index_memory.md R97: V0..VX at I, …, I + X, each address masked, and no other byte. -/
def Obligations.RegistersStored : Prop :=
  (∀ x (s : State), ∃ t, exec (.opFX55 x) s = .next t ∧
    (∀ k : Reg, k ≤ x → t.mem.read (atIndex s k.val) = s.v[k]) ∧
    (∀ a, (∀ k : Reg, k ≤ x → a ≠ atIndex s k.val) → t.mem.read a = s.mem.read a) ∧
    t = { s with mem := t.mem }) ∧
  RowDecodes 0xF0FF 0xF055 (fun w => .opFX55 (bitsX w))

/-- 42_index_memory.md R98: V0..VX from I, …, I + X, each address masked, and no other register. -/
def Obligations.RegistersLoaded : Prop :=
  (∀ x (s : State), ∃ t, exec (.opFX65 x) s = .next t ∧
    (∀ k : Reg, t.v[k] = if k ≤ x then s.mem.read (atIndex s k.val) else s.v[k]) ∧
    t = { s with v := t.v }) ∧
  RowDecodes 0xF0FF 0xF065 (fun w => .opFX65 (bitsX w))

/-- 20_memory.md R37, R45: an access masks its address to 12 bits, and a read gives the last byte written there. -/
def Obligations.MemoryReadsLastWrite : Prop :=
  ∀ (s : State) (a c : Word) (b : Byte),
    ((s.writeByte a b).readByte c = if a.toNat % 4096 = c.toNat % 4096 then b else s.readByte c) ∧
    s.readByte c = s.mem.read (c.toNat % 4096)

/-- Memory is its bytes: two canonical memories that read alike are equal (the model's representation of 10_state.md R22). -/
def Obligations.CanonicalMemoryIsItsBytes : Prop :=
  ∀ m m' : Memory, m.wf = true → m'.wf = true → (∀ a, a < 4096 → m.read a = m'.read a) → m = m'

/-! ### Display -/

/-- 43_display.md R102: every pixel 0, and nothing else changes. -/
def Obligations.ClearBlanksDisplay : Prop :=
  (∀ s : State, ∃ t, exec .op00E0 s = .next t ∧ (∀ (x : Fin 64) (y : Fin 32), t.fb[y][x] = false) ∧
    t = { s with fb := t.fb }) ∧
  RowDecodes 0xFFFF 0x00E0 (fun _ => .op00E0)

/-- 43_display.md R103 with R100, R101 and R104: each pixel is XORed with the sprite bit over it, wrapping on each axis, and VF
is 1 exactly when a 1 bit lay on a pixel that was 1; nothing else changes. -/
def Obligations.DrawXorsSprite : Prop :=
  (∀ x y n (s : State), ∃ t, exec (.opDXYN x y n) s = .next t ∧
    (∀ (px : Fin 64) (py : Fin 32), t.fb[py][px] = xor s.fb[py][px] (spriteBit s x y n px py)) ∧
    (Collides s x y n → t.v = s.v.set 15 1) ∧ (¬ Collides s x y n → t.v = s.v.set 15 0) ∧
    t = { s with fb := t.fb, v := t.v }) ∧
  (∀ x y (s : State), exec (.opDXYN x y 0) s = .next { s with v := s.v.set 15 0 }) ∧
  RowDecodes 0xF000 0xD000 (fun w => .opDXYN (bitsX w) (bitsY w) (bitsN w))

/-- Drawing the same sprite twice restores the display, and the second draw collides exactly when the first drew a 1 bit on a
pixel it turned on (43_display.md R103, 90_conflicts.md C5), where VF is neither coordinate. -/
def Obligations.DrawTwiceRestoresDisplay : Prop :=
  ∀ x y n (s : State), x ≠ 15 → y ≠ 15 →
    ∃ t u, exec (.opDXYN x y n) s = .next t ∧ exec (.opDXYN x y n) t = .next u ∧ u.fb = s.fb ∧
      (u.v[(15 : Reg)] = 1 ↔ ∃ (px : Fin 64) (py : Fin 32), spriteBit s x y n px py = true ∧ s.fb[py][px] = false)

/-! ### Keypad and timers -/

/-- 44_keypad_timers.md R106, R107, R108: a key index up to 15 skips by the key's sampled level; above 15 one record is logged
and neither instruction skips. -/
def Obligations.KeySkips : Prop :=
  (∀ x (s : State), s.v[x].toNat ≤ 15 → ∃ k : Keys, (∀ k', s.keys = some k' → k = k') ∧
    exec (.opEX9E x) s = .next { s with pc := if k.getLsbD s.v[x].toNat then s.pc + 2 else s.pc } ∧
    exec (.opEXA1 x) s = .next { s with pc := if k.getLsbD s.v[x].toNat then s.pc else s.pc + 2 }) ∧
  (∀ x (s : State), s.v[x].toNat > 15 →
    exec (.opEX9E x) s =
      .next { s with events := s.events ++ [⟨.keyIndexRange, s.pc - 2, BitVec.ofNat 16 s.v[x].toNat⟩] } ∧
    exec (.opEXA1 x) s =
      .next { s with events := s.events ++ [⟨.keyIndexRange, s.pc - 2, BitVec.ofNat 16 s.v[x].toNat⟩] }) ∧
  RowDecodes 0xF0FF 0xE09E (fun w => .opEX9E (bitsX w)) ∧ RowDecodes 0xF0FF 0xE0A1 (fun w => .opEXA1 (bitsX w))

/-- 60_exceptions.md R121: the key index check seen from the step, with the instruction's own address in the record,
with the queue empty or a `step` first in it. The rest of `fetched` is the model's bookkeeping (log entries 5, 6 and 10). -/
def Obligations.KeyIndexOutOfRangeOnlyLogs : Prop :=
  ∀ s : State, Ready s → (s.fetchWord &&& 0xF0FF = 0xE09E ∨ s.fetchWord &&& 0xF0FF = 0xE0A1) →
    s.v[bitsX s.fetchWord].toNat > 15 →
    step s = .next { fetched s with
      events := s.events ++ [⟨.keyIndexRange, s.pc, BitVec.ofNat 16 s.v[bitsX s.fetchWord].toNat⟩] }

/-- 44_keypad_timers.md R109: FX0A records X and the keys sampled in this step, and waits; V[X] is not written yet. -/
def Obligations.WaitForKeyStarts : Prop :=
  (∀ x (s : State), ∃ k : Keys, (∀ k', s.keys = some k' → k = k') ∧
    exec (.opFX0A x) s = .next { s with waitReg := x, keyPrev := k, status := .waiting }) ∧
  RowDecodes 0xF0FF 0xF00A (fun w => .opFX0A (bitsX w))

/-- 44_keypad_timers.md R110: a waiting step runs no instruction; the lowest key that went down ends the wait, and the sample
becomes the baseline either way. It is any `step` of a waiting machine, with the queue empty or a `step` first in it, so key
changes may stand between waiting steps. `pending`, `stepped` and `samples` are the model's bookkeeping (log entries 5, 6
and 10). -/
def Obligations.WaitingStepTakesLowestNewKey : Prop :=
  ∀ s : State, s.status = .waiting → nextEvent s = .step → ∃ k : Keys, (∀ k', s.keys = some k' → k = k') ∧
    ((k &&& ~~~s.keyPrev) = 0 →
      step s = .next { s with
        keyPrev := k, stepped := true, samples := s.samples + 1, pending := s.pending.tail }) ∧
    ((k &&& ~~~s.keyPrev) ≠ 0 → ∃ j : Fin 16,
      (k.getLsbD j.val = true ∧ s.keyPrev.getLsbD j.val = false) ∧
      (∀ l : Fin 16, l < j → k.getLsbD l.val = true → s.keyPrev.getLsbD l.val = true) ∧
      step s = .next { s with
        v := s.v.set s.waitReg (BitVec.ofNat 8 j.val), status := .running, keyPrev := k,
        stepped := true, samples := s.samples + 1, pending := s.pending.tail })

/-- 44_keypad_timers.md R111, R112: the delay timer read and set. -/
def Obligations.DelayTimerReadAndSet : Prop :=
  (∀ x s, exec (.opFX07 x) s = .next { s with v := s.v.set x s.dt }) ∧
  RowDecodes 0xF0FF 0xF007 (fun w => .opFX07 (bitsX w)) ∧
  (∀ x s, exec (.opFX15 x) s = .next { s with dt := s.v[x] }) ∧
  RowDecodes 0xF0FF 0xF015 (fun w => .opFX15 (bitsX w))

/-- 44_keypad_timers.md R113: the sound timer set, with one beep when a nonzero ST is overwritten by 0. `beeps` counts the
pulses (log entry 7). -/
def Obligations.SoundTimerSet : Prop :=
  (∀ x s, exec (.opFX18 x) s =
    .next { s with st := s.v[x], beeps := if s.st ≠ 0 ∧ s.v[x] = 0 then s.beeps + 1 else s.beeps }) ∧
  RowDecodes 0xF0FF 0xF018 (fun w => .opFX18 (bitsX w))

/-- 60_exceptions.md R126: a tick takes each timer down by 1, clamped at 0, RUNNING or WAITING alike, with a beep when ST
reaches 0; HALTED it does nothing. The queue and the pulse count are the model's (log entries 6 and 7). -/
def Obligations.TickDecrementsTimers : Prop :=
  (∀ (s : State) (rest : List HostEvent), s.status ≠ .halted → ∃ t, step { s with pending := .tick :: rest } = .next t ∧
    t.dt.toNat = s.dt.toNat - 1 ∧ t.st.toNat = s.st.toNat - 1 ∧
    t.beeps = s.beeps + (if s.st.toNat = 1 then 1 else 0) ∧
    t = { s with pending := rest, dt := t.dt, st := t.st, beeps := t.beeps }) ∧
  (∀ (s : State) (rest : List HostEvent), s.status = .halted →
    step { s with pending := .tick :: rest } = .next { s with pending := rest })

/-- 60_exceptions.md R127: a beep exactly when ST goes from nonzero to 0, whatever the machine does, and never more than one.
A reset does not beep: it starts the count anew (log entry 7). -/
def Obligations.BeepExactlyAtSoundEnd : Prop :=
  ∀ s t : State, step s = .next t →
    (nextEvent s ≠ .reset → t.beeps = s.beeps + (if s.st ≠ 0 ∧ t.st = 0 then 1 else 0)) ∧
    (nextEvent s = .reset → t.beeps = 0)

/-! ### Halting, cancelling, reset and boot -/

/-- 60_exceptions.md R117: HALTED, a step, a tick and a cancel change nothing (a step is still noted as issued, log entry 10;
the event is taken from the queue, log entry 6), and only a reset leaves HALTED. -/
def Obligations.HaltedIsTerminal : Prop :=
  (∀ s : State, s.status = .halted → s.pending = [] → step s = .next { s with stepped := true }) ∧
  (∀ (s : State) (rest : List HostEvent), s.status = .halted →
    step { s with pending := .step :: rest } = .next { s with pending := rest, stepped := true } ∧
    step { s with pending := .tick :: rest } = .next { s with pending := rest } ∧
    step { s with pending := .cancel :: rest } = .next { s with pending := rest }) ∧
  (∀ s t : State, s.status = .halted → step s = .next t → t.status ≠ .halted → nextEvent s = .reset)

/-- A fault outcome (60_exceptions.md R117) lasts until a reset, and only a stack fault starts one. That it is a next state,
read by `faultOutcome`, is the model's choice (log entry 4). -/
def Obligations.FaultOutcomeLasts : Prop :=
  (∀ (s t : State) (f : Fault), faultOutcome s = some f → step s = .next t → nextEvent s ≠ .reset →
    faultOutcome t = some f) ∧
  (∀ (s t : State) (f : Fault), faultOutcome s = none → s.status ≠ .halted → step s = .next t → faultOutcome t = some f →
    nextEvent s = .step ∧ s.status = .running ∧
    ((f = .stackOverflow ∧ s.depth = 16) ∨ (f = .stackUnderflow ∧ s.depth = 0)))

/-- 60_exceptions.md R118: a cancel in any status but HALTED. The queue is the model's (log entry 6). -/
def Obligations.CancelHalts : Prop :=
  (∀ (s : State) (rest : List HostEvent), s.status ≠ .halted → step { s with pending := .cancel :: rest } =
    .next { s with pending := rest, status := .halted, faultCause := .cancelled, faultAddr := s.pc,
                   events := s.events ++ [⟨.cancelled, s.pc, 0⟩] }) ∧
  (∀ (s : State) (rest : List HostEvent), s.status = .halted →
    step { s with pending := .cancel :: rest } = .next { s with pending := rest })

/-- 10_state.md R34: every state item's value at reset. -/
def Obligations.ResetValues : Prop := AtReset State.reset

/-- A reset event gives every state item its reset value from any state, HALTED included (70_reset_and_hazards.md R133). What it
leaves alone (the host's inputs and coming events, the parameters) and that the pulse count starts anew are the model's choice
(log entries 7 and 11). -/
def Obligations.ResetEventRestoresReset : Prop :=
  ∀ (s : State) (rest : List HostEvent), ∃ t, step { s with pending := .reset :: rest } = .next t ∧ AtReset t ∧
    t.stepped = false ∧ t.beeps = 0 ∧
    t.keys = s.keys ∧ t.rnd = s.rnd ∧ t.samples = s.samples ∧ t.pending = rest ∧ t.params = s.params

/-- 70_reset_and_hazards.md R136: a `load` before the first step writes one masked byte; at any other time it is refused; a ROM
of at most 3584 bytes goes to 0x200 on, byte by byte, and a longer one is refused as a whole. -/
def Obligations.LoadBeforeFirstStep : Prop :=
  (∀ (s : State) (a : Word) (b : Byte) (rest : List HostEvent), s.stepped = false →
    ∃ t, step { s with pending := .load a b :: rest } = .next t ∧
      (∀ c, t.mem.read c = if c = a.toNat % 4096 then b else s.mem.read c) ∧
      t = { s with pending := rest, mem := t.mem }) ∧
  (∀ (s : State) (a : Word) (b : Byte) (rest : List HostEvent), s.stepped = true →
    step { s with pending := .load a b :: rest } = .refused .loadAfterFirstStep) ∧
  (∀ (s : State) (rom : List Byte), s.stepped = false → rom.length ≤ 3584 →
    ∃ t, State.loadRom rom s = .next t ∧
      (∀ (j : Nat) (h : j < rom.length), t.mem.read (0x200 + j) = rom[j]) ∧
      (∀ a, (a < 0x200 ∨ 0x200 + rom.length ≤ a) → t.mem.read a = s.mem.read a) ∧
      t = { s with mem := t.mem }) ∧
  (∀ (s : State) (rom : List Byte), rom.length > 3584 → State.loadRom rom s = .refused .romTooLong)

/-- The boot sequence (70_reset_and_hazards.md R135): from any state, the reset state with the ROM at 0x200, the font where the
ROM does not cover it, zero elsewhere, and the keys the host presents. -/
def Obligations.BootPlacesFontAndRom : Prop :=
  ∀ (s : State) (font rom : List Byte) (k : Keys), rom.length ≤ 3584 → font.length ≤ 4096 →
    ∃ t, State.boot font rom k s = .next t ∧ t = { s.resetEvent with mem := t.mem, keys := some k } ∧
      (∀ (j : Nat) (h : j < rom.length), t.mem.read (0x200 + j) = rom[j]) ∧
      (∀ (j : Nat) (h : j < font.length),
        ((s.params.fontBase.toNat + j) % 4096 < 0x200 ∨ 0x200 + rom.length ≤ (s.params.fontBase.toNat + j) % 4096) →
        t.mem.read ((s.params.fontBase.toNat + j) % 4096) = font[j]) ∧
      (∀ a, (a < 0x200 ∨ 0x200 + rom.length ≤ a) → (∀ j, j < font.length → a ≠ (s.params.fontBase.toNat + j) % 4096) →
        t.mem.read a = 0)

/-- The pixel port returns FB[x][y] inside the grid and refuses a query outside it (10_state.md R33, D31). -/
def Obligations.PixelPortReadsGrid : Prop :=
  (∀ (s : State) (x y : Nat) (hx : x < 64) (hy : y < 32), s.pixelPort x y = .ok s.fb[y][x]) ∧
  (∀ (s : State) (x y : Nat), (64 ≤ x ∨ 32 ≤ y) → s.pixelPort x y = .error .pixelOutsideGrid)

/-! ### Whole-machine rules -/

/-- Who writes the control state (10_state.md R16 to R19, R23, R24, R30, R32; 20_memory.md R36): an instruction that changes I, PC
beyond the fetch advance, the stack, SP, DT, ST, memory, the display, STATUS, WAIT_REG, KEY_PREV or the fault record is one of
those its rule names. -/
def Obligations.OnlyNamedInstructionsWrite : Prop :=
  ∀ (i : Instr) (s t : State), exec i s = .next t →
    (t.i ≠ s.i → (∃ n, i = .opANNN n) ∨ (∃ x, i = .opFX1E x) ∨ ∃ x, i = .opFX29 x) ∧
    (t.pc ≠ s.pc → i = .op00EE ∨ (∃ n, i = .op1NNN n) ∨ (∃ n, i = .op2NNN n) ∨ (∃ x n, i = .op3XNN x n) ∨
      (∃ x n, i = .op4XNN x n) ∨ (∃ x y, i = .op5XY0 x y) ∨ (∃ x y, i = .op9XY0 x y) ∨ (∃ n, i = .opBNNN n) ∨
      (∃ x, i = .opEX9E x) ∨ ∃ x, i = .opEXA1 x) ∧
    (t.stack ≠ s.stack → ∃ n, i = .op2NNN n) ∧
    (t.depth ≠ s.depth → i = .op00EE ∨ ∃ n, i = .op2NNN n) ∧
    (t.dt ≠ s.dt → ∃ x, i = .opFX15 x) ∧
    (t.st ≠ s.st → ∃ x, i = .opFX18 x) ∧
    (t.mem ≠ s.mem → (∃ x, i = .opFX33 x) ∨ ∃ x, i = .opFX55 x) ∧
    (t.fb ≠ s.fb → i = .op00E0 ∨ ∃ x y n, i = .opDXYN x y n) ∧
    (t.status ≠ s.status → i = .op00EE ∨ (∃ n, i = .op2NNN n) ∨ ∃ x, i = .opFX0A x) ∧
    ((t.waitReg ≠ s.waitReg ∨ t.keyPrev ≠ s.keyPrev) → ∃ x, i = .opFX0A x) ∧
    ((t.faultCause ≠ s.faultCause ∨ t.faultAddr ≠ s.faultAddr) → i = .op00EE ∨ ∃ n, i = .op2NNN n)

/-- 10_state.md R15: VF changes only as the flag of the six flag-setting instructions or as the destination an instruction
names; and each of the six, whatever registers it names, changes it in some state. -/
def Obligations.FlagWritersOfVF : Prop :=
  (∀ (i : Instr) (s t : State), exec i s = .next t → t.v[(15 : Reg)] ≠ s.v[(15 : Reg)] →
    setsVF i = true ∨ namesVF i = true) ∧
  (∀ i : Instr, setsVF i = true → ∃ s t, exec i s = .next t ∧ t.v[(15 : Reg)] ≠ s.v[(15 : Reg)])

/-- No instruction writes an input or a parameter (10_state.md R28: "The CORE never writes K"; 00_scope.md R6), and no event at all
changes a parameter. That the parameters stand in State (log entry 8), that no instruction touches the queue, the sample count or
`stepped` (log entries 5, 6 and 10), and that an event leaves the queue's tail (log entry 6) are the model's choices. -/
def Obligations.InputsAndParametersKept : Prop :=
  (∀ (i : Instr) (s t : State), exec i s = .next t →
    t.keys = s.keys ∧ t.rnd = s.rnd ∧ t.pending = s.pending ∧ t.params = s.params ∧ t.samples = s.samples ∧
    t.stepped = s.stepped) ∧
  (∀ s t : State, step s = .next t → t.params = s.params ∧ t.pending = s.pending.tail)

/-- 60_exceptions.md R119, R124: the event stream is only appended to, by at most one record an event, and each instruction has
at most the one condition its rule names. -/
def Obligations.AtMostOneEventRecord : Prop :=
  (∀ s t : State, step s = .next t → nextEvent s ≠ .reset → t.events = s.events ∨ ∃ r, t.events = s.events ++ [r]) ∧
  (∀ (i : Instr) (s t : State) (r : EventRecord), exec i s = .next t → t.events = s.events ++ [r] →
    (r.code = .stackOverflow ∧ ∃ n, i = .op2NNN n) ∨ (r.code = .stackUnderflow ∧ i = .op00EE) ∨
    (r.code = .keyIndexRange ∧ ((∃ x, i = .opEX9E x) ∨ ∃ x, i = .opEXA1 x)))

/-- 10_state.md R18: entries above SP cannot be observed. Two states that differ only there take the same step, to states that
again differ only there. -/
def Obligations.StackAboveSPUnobservable : Prop :=
  ∀ s s' : State, SameBelowSP s s' →
    (∀ t, step s = .next t → ∃ t', step s' = .next t' ∧ SameBelowSP t t') ∧
    (∀ r, step s = .refused r → step s' = .refused r)

/-- 10_state.md R21: no instruction reads ST; a program can observe it only through the beep output. Two states that differ
only in ST and the beeps so far take the same step, to states that again differ only there. -/
def Obligations.SoundTimerUnobservable : Prop :=
  ∀ s s' : State, SameButSound s s' →
    (∀ t, step s = .next t → ∃ t', step s' = .next t' ∧ SameButSound t t') ∧
    (∀ r, step s = .refused r → step s' = .refused r)

/-- The invariant holds at reset. -/
def Obligations.ResetMeetsInvariant : Prop := Inv State.reset

/-- Every event keeps the invariant: every step, tick, load, cancel, reset and input change, from every state that meets it. -/
def Obligations.StepKeepsInvariant : Prop := ∀ s t : State, Inv s → step s = .next t → Inv t

/-! ### The input levels -/

/-- A host's change of an input level (10_state.md R28, R33) sets that level and changes nothing else, in any status; the level is
then what the keypad sample, or the random byte, of a step is (a HALTED machine's steps read neither, 60_exceptions.md R117). That the levels are held as `Option` is log entry 5, that the event
is taken from a queue is log entry 6, and that a level stays until the next change is log entry 9. -/
def Obligations.InputEventsSetLevels : Prop :=
  ∀ (s : State) (k : Keys) (b : Byte) (rest : List HostEvent),
    (∃ t, step { s with pending := .keys k :: rest } = .next t ∧
      t = { s with pending := rest, keys := some k } ∧ t.keySample = k ∧ t.rndByte = s.rndByte) ∧
    (∃ t, step { s with pending := .rnd b :: rest } = .next t ∧
      t = { s with pending := rest, rnd := some b } ∧ t.rndByte = b ∧ t.keySample = s.keySample)
end

