-- ==== Sys2Proof/Laws/State.lean ====
section
/-! SUPPORT. One lemma per field for each update of State: what it puts there, or that it leaves the field as it was. All by
`rfl`, so that no later proof unfolds a record update. -/

namespace Sys2Proof.Machine

variable (s : State)

/-! ### writeV: `V[r] <- b` -/

@[simp] theorem State.writeV_v (r : Reg) (b : Byte) : (s.writeV r b).v = s.v.set r b := rfl
@[simp] theorem State.writeV_i (r : Reg) (b : Byte) : (s.writeV r b).i = s.i := rfl
@[simp] theorem State.writeV_pc (r : Reg) (b : Byte) : (s.writeV r b).pc = s.pc := rfl
@[simp] theorem State.writeV_stack (r : Reg) (b : Byte) : (s.writeV r b).stack = s.stack := rfl
@[simp] theorem State.writeV_depth (r : Reg) (b : Byte) : (s.writeV r b).depth = s.depth := rfl
@[simp] theorem State.writeV_dt (r : Reg) (b : Byte) : (s.writeV r b).dt = s.dt := rfl
@[simp] theorem State.writeV_st (r : Reg) (b : Byte) : (s.writeV r b).st = s.st := rfl
@[simp] theorem State.writeV_mem (r : Reg) (b : Byte) : (s.writeV r b).mem = s.mem := rfl
@[simp] theorem State.writeV_fb (r : Reg) (b : Byte) : (s.writeV r b).fb = s.fb := rfl
@[simp] theorem State.writeV_status (r : Reg) (b : Byte) : (s.writeV r b).status = s.status := rfl
@[simp] theorem State.writeV_waitReg (r : Reg) (b : Byte) : (s.writeV r b).waitReg = s.waitReg := rfl
@[simp] theorem State.writeV_keyPrev (r : Reg) (b : Byte) : (s.writeV r b).keyPrev = s.keyPrev := rfl
@[simp] theorem State.writeV_faultCause (r : Reg) (b : Byte) : (s.writeV r b).faultCause = s.faultCause := rfl
@[simp] theorem State.writeV_faultAddr (r : Reg) (b : Byte) : (s.writeV r b).faultAddr = s.faultAddr := rfl
@[simp] theorem State.writeV_events (r : Reg) (b : Byte) : (s.writeV r b).events = s.events := rfl
@[simp] theorem State.writeV_beeps (r : Reg) (b : Byte) : (s.writeV r b).beeps = s.beeps := rfl
@[simp] theorem State.writeV_keys (r : Reg) (b : Byte) : (s.writeV r b).keys = s.keys := rfl
@[simp] theorem State.writeV_rnd (r : Reg) (b : Byte) : (s.writeV r b).rnd = s.rnd := rfl
@[simp] theorem State.writeV_samples (r : Reg) (b : Byte) : (s.writeV r b).samples = s.samples := rfl
@[simp] theorem State.writeV_pending (r : Reg) (b : Byte) : (s.writeV r b).pending = s.pending := rfl
@[simp] theorem State.writeV_stepped (r : Reg) (b : Byte) : (s.writeV r b).stepped = s.stepped := rfl
@[simp] theorem State.writeV_params (r : Reg) (b : Byte) : (s.writeV r b).params = s.params := rfl

/-! ### writeByte: `MemWrite` -/

@[simp] theorem State.writeByte_v (a : Word) (b : Byte) : (s.writeByte a b).v = s.v := rfl
@[simp] theorem State.writeByte_i (a : Word) (b : Byte) : (s.writeByte a b).i = s.i := rfl
@[simp] theorem State.writeByte_pc (a : Word) (b : Byte) : (s.writeByte a b).pc = s.pc := rfl
@[simp] theorem State.writeByte_stack (a : Word) (b : Byte) : (s.writeByte a b).stack = s.stack := rfl
@[simp] theorem State.writeByte_depth (a : Word) (b : Byte) : (s.writeByte a b).depth = s.depth := rfl
@[simp] theorem State.writeByte_dt (a : Word) (b : Byte) : (s.writeByte a b).dt = s.dt := rfl
@[simp] theorem State.writeByte_st (a : Word) (b : Byte) : (s.writeByte a b).st = s.st := rfl
@[simp] theorem State.writeByte_mem (a : Word) (b : Byte) : (s.writeByte a b).mem = s.mem.write (maskAddr a) b := rfl
@[simp] theorem State.writeByte_fb (a : Word) (b : Byte) : (s.writeByte a b).fb = s.fb := rfl
@[simp] theorem State.writeByte_status (a : Word) (b : Byte) : (s.writeByte a b).status = s.status := rfl
@[simp] theorem State.writeByte_waitReg (a : Word) (b : Byte) : (s.writeByte a b).waitReg = s.waitReg := rfl
@[simp] theorem State.writeByte_keyPrev (a : Word) (b : Byte) : (s.writeByte a b).keyPrev = s.keyPrev := rfl
@[simp] theorem State.writeByte_faultCause (a : Word) (b : Byte) : (s.writeByte a b).faultCause = s.faultCause := rfl
@[simp] theorem State.writeByte_faultAddr (a : Word) (b : Byte) : (s.writeByte a b).faultAddr = s.faultAddr := rfl
@[simp] theorem State.writeByte_events (a : Word) (b : Byte) : (s.writeByte a b).events = s.events := rfl
@[simp] theorem State.writeByte_beeps (a : Word) (b : Byte) : (s.writeByte a b).beeps = s.beeps := rfl
@[simp] theorem State.writeByte_keys (a : Word) (b : Byte) : (s.writeByte a b).keys = s.keys := rfl
@[simp] theorem State.writeByte_rnd (a : Word) (b : Byte) : (s.writeByte a b).rnd = s.rnd := rfl
@[simp] theorem State.writeByte_samples (a : Word) (b : Byte) : (s.writeByte a b).samples = s.samples := rfl
@[simp] theorem State.writeByte_pending (a : Word) (b : Byte) : (s.writeByte a b).pending = s.pending := rfl
@[simp] theorem State.writeByte_stepped (a : Word) (b : Byte) : (s.writeByte a b).stepped = s.stepped := rfl
@[simp] theorem State.writeByte_params (a : Word) (b : Byte) : (s.writeByte a b).params = s.params := rfl

/-! ### advance: the fetch advance -/

@[simp] theorem State.advance_v : s.advance.v = s.v := rfl
@[simp] theorem State.advance_i : s.advance.i = s.i := rfl
@[simp] theorem State.advance_pc : s.advance.pc = s.pc + 2 := rfl
@[simp] theorem State.advance_stack : s.advance.stack = s.stack := rfl
@[simp] theorem State.advance_depth : s.advance.depth = s.depth := rfl
@[simp] theorem State.advance_dt : s.advance.dt = s.dt := rfl
@[simp] theorem State.advance_st : s.advance.st = s.st := rfl
@[simp] theorem State.advance_mem : s.advance.mem = s.mem := rfl
@[simp] theorem State.advance_fb : s.advance.fb = s.fb := rfl
@[simp] theorem State.advance_status : s.advance.status = s.status := rfl
@[simp] theorem State.advance_waitReg : s.advance.waitReg = s.waitReg := rfl
@[simp] theorem State.advance_keyPrev : s.advance.keyPrev = s.keyPrev := rfl
@[simp] theorem State.advance_faultCause : s.advance.faultCause = s.faultCause := rfl
@[simp] theorem State.advance_faultAddr : s.advance.faultAddr = s.faultAddr := rfl
@[simp] theorem State.advance_events : s.advance.events = s.events := rfl
@[simp] theorem State.advance_beeps : s.advance.beeps = s.beeps := rfl
@[simp] theorem State.advance_keys : s.advance.keys = s.keys := rfl
@[simp] theorem State.advance_rnd : s.advance.rnd = s.rnd := rfl
@[simp] theorem State.advance_samples : s.advance.samples = s.samples := rfl
@[simp] theorem State.advance_pending : s.advance.pending = s.pending := rfl
@[simp] theorem State.advance_stepped : s.advance.stepped = s.stepped := rfl
@[simp] theorem State.advance_params : s.advance.params = s.params := rfl

/-! ### jump: a jump -/

@[simp] theorem State.jump_v (a : Word) : (s.jump a).v = s.v := rfl
@[simp] theorem State.jump_i (a : Word) : (s.jump a).i = s.i := rfl
@[simp] theorem State.jump_pc (a : Word) : (s.jump a).pc = a := rfl
@[simp] theorem State.jump_stack (a : Word) : (s.jump a).stack = s.stack := rfl
@[simp] theorem State.jump_depth (a : Word) : (s.jump a).depth = s.depth := rfl
@[simp] theorem State.jump_dt (a : Word) : (s.jump a).dt = s.dt := rfl
@[simp] theorem State.jump_st (a : Word) : (s.jump a).st = s.st := rfl
@[simp] theorem State.jump_mem (a : Word) : (s.jump a).mem = s.mem := rfl
@[simp] theorem State.jump_fb (a : Word) : (s.jump a).fb = s.fb := rfl
@[simp] theorem State.jump_status (a : Word) : (s.jump a).status = s.status := rfl
@[simp] theorem State.jump_waitReg (a : Word) : (s.jump a).waitReg = s.waitReg := rfl
@[simp] theorem State.jump_keyPrev (a : Word) : (s.jump a).keyPrev = s.keyPrev := rfl
@[simp] theorem State.jump_faultCause (a : Word) : (s.jump a).faultCause = s.faultCause := rfl
@[simp] theorem State.jump_faultAddr (a : Word) : (s.jump a).faultAddr = s.faultAddr := rfl
@[simp] theorem State.jump_events (a : Word) : (s.jump a).events = s.events := rfl
@[simp] theorem State.jump_beeps (a : Word) : (s.jump a).beeps = s.beeps := rfl
@[simp] theorem State.jump_keys (a : Word) : (s.jump a).keys = s.keys := rfl
@[simp] theorem State.jump_rnd (a : Word) : (s.jump a).rnd = s.rnd := rfl
@[simp] theorem State.jump_samples (a : Word) : (s.jump a).samples = s.samples := rfl
@[simp] theorem State.jump_pending (a : Word) : (s.jump a).pending = s.pending := rfl
@[simp] theorem State.jump_stepped (a : Word) : (s.jump a).stepped = s.stepped := rfl
@[simp] theorem State.jump_params (a : Word) : (s.jump a).params = s.params := rfl

/-! ### skipIf: the skip primitive -/

@[simp] theorem State.skipIf_v (c : Bool) : (s.skipIf c).v = s.v := rfl
@[simp] theorem State.skipIf_i (c : Bool) : (s.skipIf c).i = s.i := rfl
@[simp] theorem State.skipIf_pc (c : Bool) : (s.skipIf c).pc = if c then s.pc + 2 else s.pc := rfl
@[simp] theorem State.skipIf_stack (c : Bool) : (s.skipIf c).stack = s.stack := rfl
@[simp] theorem State.skipIf_depth (c : Bool) : (s.skipIf c).depth = s.depth := rfl
@[simp] theorem State.skipIf_dt (c : Bool) : (s.skipIf c).dt = s.dt := rfl
@[simp] theorem State.skipIf_st (c : Bool) : (s.skipIf c).st = s.st := rfl
@[simp] theorem State.skipIf_mem (c : Bool) : (s.skipIf c).mem = s.mem := rfl
@[simp] theorem State.skipIf_fb (c : Bool) : (s.skipIf c).fb = s.fb := rfl
@[simp] theorem State.skipIf_status (c : Bool) : (s.skipIf c).status = s.status := rfl
@[simp] theorem State.skipIf_waitReg (c : Bool) : (s.skipIf c).waitReg = s.waitReg := rfl
@[simp] theorem State.skipIf_keyPrev (c : Bool) : (s.skipIf c).keyPrev = s.keyPrev := rfl
@[simp] theorem State.skipIf_faultCause (c : Bool) : (s.skipIf c).faultCause = s.faultCause := rfl
@[simp] theorem State.skipIf_faultAddr (c : Bool) : (s.skipIf c).faultAddr = s.faultAddr := rfl
@[simp] theorem State.skipIf_events (c : Bool) : (s.skipIf c).events = s.events := rfl
@[simp] theorem State.skipIf_beeps (c : Bool) : (s.skipIf c).beeps = s.beeps := rfl
@[simp] theorem State.skipIf_keys (c : Bool) : (s.skipIf c).keys = s.keys := rfl
@[simp] theorem State.skipIf_rnd (c : Bool) : (s.skipIf c).rnd = s.rnd := rfl
@[simp] theorem State.skipIf_samples (c : Bool) : (s.skipIf c).samples = s.samples := rfl
@[simp] theorem State.skipIf_pending (c : Bool) : (s.skipIf c).pending = s.pending := rfl
@[simp] theorem State.skipIf_stepped (c : Bool) : (s.skipIf c).stepped = s.stepped := rfl
@[simp] theorem State.skipIf_params (c : Bool) : (s.skipIf c).params = s.params := rfl

/-! ### log: one event record -/

@[simp] theorem State.log_v (c : EventCode) (a i : Word) : (s.log c a i).v = s.v := rfl
@[simp] theorem State.log_i (c : EventCode) (a i : Word) : (s.log c a i).i = s.i := rfl
@[simp] theorem State.log_pc (c : EventCode) (a i : Word) : (s.log c a i).pc = s.pc := rfl
@[simp] theorem State.log_stack (c : EventCode) (a i : Word) : (s.log c a i).stack = s.stack := rfl
@[simp] theorem State.log_depth (c : EventCode) (a i : Word) : (s.log c a i).depth = s.depth := rfl
@[simp] theorem State.log_dt (c : EventCode) (a i : Word) : (s.log c a i).dt = s.dt := rfl
@[simp] theorem State.log_st (c : EventCode) (a i : Word) : (s.log c a i).st = s.st := rfl
@[simp] theorem State.log_mem (c : EventCode) (a i : Word) : (s.log c a i).mem = s.mem := rfl
@[simp] theorem State.log_fb (c : EventCode) (a i : Word) : (s.log c a i).fb = s.fb := rfl
@[simp] theorem State.log_status (c : EventCode) (a i : Word) : (s.log c a i).status = s.status := rfl
@[simp] theorem State.log_waitReg (c : EventCode) (a i : Word) : (s.log c a i).waitReg = s.waitReg := rfl
@[simp] theorem State.log_keyPrev (c : EventCode) (a i : Word) : (s.log c a i).keyPrev = s.keyPrev := rfl
@[simp] theorem State.log_faultCause (c : EventCode) (a i : Word) : (s.log c a i).faultCause = s.faultCause := rfl
@[simp] theorem State.log_faultAddr (c : EventCode) (a i : Word) : (s.log c a i).faultAddr = s.faultAddr := rfl
@[simp] theorem State.log_events (c : EventCode) (a i : Word) : (s.log c a i).events = s.events ++ [{ code := c, addr := a, info := i }] := rfl
@[simp] theorem State.log_beeps (c : EventCode) (a i : Word) : (s.log c a i).beeps = s.beeps := rfl
@[simp] theorem State.log_keys (c : EventCode) (a i : Word) : (s.log c a i).keys = s.keys := rfl
@[simp] theorem State.log_rnd (c : EventCode) (a i : Word) : (s.log c a i).rnd = s.rnd := rfl
@[simp] theorem State.log_samples (c : EventCode) (a i : Word) : (s.log c a i).samples = s.samples := rfl
@[simp] theorem State.log_pending (c : EventCode) (a i : Word) : (s.log c a i).pending = s.pending := rfl
@[simp] theorem State.log_stepped (c : EventCode) (a i : Word) : (s.log c a i).stepped = s.stepped := rfl
@[simp] theorem State.log_params (c : EventCode) (a i : Word) : (s.log c a i).params = s.params := rfl

/-! ### setSound: a new value of ST -/

@[simp] theorem State.setSound_v (b : Byte) : (s.setSound b).v = s.v := rfl
@[simp] theorem State.setSound_i (b : Byte) : (s.setSound b).i = s.i := rfl
@[simp] theorem State.setSound_pc (b : Byte) : (s.setSound b).pc = s.pc := rfl
@[simp] theorem State.setSound_stack (b : Byte) : (s.setSound b).stack = s.stack := rfl
@[simp] theorem State.setSound_depth (b : Byte) : (s.setSound b).depth = s.depth := rfl
@[simp] theorem State.setSound_dt (b : Byte) : (s.setSound b).dt = s.dt := rfl
@[simp] theorem State.setSound_st (b : Byte) : (s.setSound b).st = b := rfl
@[simp] theorem State.setSound_mem (b : Byte) : (s.setSound b).mem = s.mem := rfl
@[simp] theorem State.setSound_fb (b : Byte) : (s.setSound b).fb = s.fb := rfl
@[simp] theorem State.setSound_status (b : Byte) : (s.setSound b).status = s.status := rfl
@[simp] theorem State.setSound_waitReg (b : Byte) : (s.setSound b).waitReg = s.waitReg := rfl
@[simp] theorem State.setSound_keyPrev (b : Byte) : (s.setSound b).keyPrev = s.keyPrev := rfl
@[simp] theorem State.setSound_faultCause (b : Byte) : (s.setSound b).faultCause = s.faultCause := rfl
@[simp] theorem State.setSound_faultAddr (b : Byte) : (s.setSound b).faultAddr = s.faultAddr := rfl
@[simp] theorem State.setSound_events (b : Byte) : (s.setSound b).events = s.events := rfl
@[simp] theorem State.setSound_beeps (b : Byte) : (s.setSound b).beeps = if s.st ≠ 0 ∧ b = 0 then s.beeps + 1 else s.beeps := rfl
@[simp] theorem State.setSound_keys (b : Byte) : (s.setSound b).keys = s.keys := rfl
@[simp] theorem State.setSound_rnd (b : Byte) : (s.setSound b).rnd = s.rnd := rfl
@[simp] theorem State.setSound_samples (b : Byte) : (s.setSound b).samples = s.samples := rfl
@[simp] theorem State.setSound_pending (b : Byte) : (s.setSound b).pending = s.pending := rfl
@[simp] theorem State.setSound_stepped (b : Byte) : (s.setSound b).stepped = s.stepped := rfl
@[simp] theorem State.setSound_params (b : Byte) : (s.setSound b).params = s.params := rfl

/-! ### halt: the entry to HALTED -/

@[simp] theorem State.halt_v (f : FaultCause) (c : EventCode) (a i : Word) : (s.halt f c a i).v = s.v := rfl
@[simp] theorem State.halt_i (f : FaultCause) (c : EventCode) (a i : Word) : (s.halt f c a i).i = s.i := rfl
@[simp] theorem State.halt_pc (f : FaultCause) (c : EventCode) (a i : Word) : (s.halt f c a i).pc = s.pc := rfl
@[simp] theorem State.halt_stack (f : FaultCause) (c : EventCode) (a i : Word) : (s.halt f c a i).stack = s.stack := rfl
@[simp] theorem State.halt_depth (f : FaultCause) (c : EventCode) (a i : Word) : (s.halt f c a i).depth = s.depth := rfl
@[simp] theorem State.halt_dt (f : FaultCause) (c : EventCode) (a i : Word) : (s.halt f c a i).dt = s.dt := rfl
@[simp] theorem State.halt_st (f : FaultCause) (c : EventCode) (a i : Word) : (s.halt f c a i).st = s.st := rfl
@[simp] theorem State.halt_mem (f : FaultCause) (c : EventCode) (a i : Word) : (s.halt f c a i).mem = s.mem := rfl
@[simp] theorem State.halt_fb (f : FaultCause) (c : EventCode) (a i : Word) : (s.halt f c a i).fb = s.fb := rfl
@[simp] theorem State.halt_status (f : FaultCause) (c : EventCode) (a i : Word) : (s.halt f c a i).status = .halted := rfl
@[simp] theorem State.halt_waitReg (f : FaultCause) (c : EventCode) (a i : Word) : (s.halt f c a i).waitReg = s.waitReg := rfl
@[simp] theorem State.halt_keyPrev (f : FaultCause) (c : EventCode) (a i : Word) : (s.halt f c a i).keyPrev = s.keyPrev := rfl
@[simp] theorem State.halt_faultCause (f : FaultCause) (c : EventCode) (a i : Word) : (s.halt f c a i).faultCause = f := rfl
@[simp] theorem State.halt_faultAddr (f : FaultCause) (c : EventCode) (a i : Word) : (s.halt f c a i).faultAddr = a := rfl
@[simp] theorem State.halt_events (f : FaultCause) (c : EventCode) (a i : Word) : (s.halt f c a i).events = s.events ++ [{ code := c, addr := a, info := i }] := rfl
@[simp] theorem State.halt_beeps (f : FaultCause) (c : EventCode) (a i : Word) : (s.halt f c a i).beeps = s.beeps := rfl
@[simp] theorem State.halt_keys (f : FaultCause) (c : EventCode) (a i : Word) : (s.halt f c a i).keys = s.keys := rfl
@[simp] theorem State.halt_rnd (f : FaultCause) (c : EventCode) (a i : Word) : (s.halt f c a i).rnd = s.rnd := rfl
@[simp] theorem State.halt_samples (f : FaultCause) (c : EventCode) (a i : Word) : (s.halt f c a i).samples = s.samples := rfl
@[simp] theorem State.halt_pending (f : FaultCause) (c : EventCode) (a i : Word) : (s.halt f c a i).pending = s.pending := rfl
@[simp] theorem State.halt_stepped (f : FaultCause) (c : EventCode) (a i : Word) : (s.halt f c a i).stepped = s.stepped := rfl
@[simp] theorem State.halt_params (f : FaultCause) (c : EventCode) (a i : Word) : (s.halt f c a i).params = s.params := rfl

/-! ### raise: fault entry -/

@[simp] theorem State.raise_v (f : Fault) (w : Word) : (s.raise f w).v = s.v := rfl
@[simp] theorem State.raise_i (f : Fault) (w : Word) : (s.raise f w).i = s.i := rfl
@[simp] theorem State.raise_pc (f : Fault) (w : Word) : (s.raise f w).pc = s.pc := rfl
@[simp] theorem State.raise_stack (f : Fault) (w : Word) : (s.raise f w).stack = s.stack := rfl
@[simp] theorem State.raise_depth (f : Fault) (w : Word) : (s.raise f w).depth = s.depth := rfl
@[simp] theorem State.raise_dt (f : Fault) (w : Word) : (s.raise f w).dt = s.dt := rfl
@[simp] theorem State.raise_st (f : Fault) (w : Word) : (s.raise f w).st = s.st := rfl
@[simp] theorem State.raise_mem (f : Fault) (w : Word) : (s.raise f w).mem = s.mem := rfl
@[simp] theorem State.raise_fb (f : Fault) (w : Word) : (s.raise f w).fb = s.fb := rfl
@[simp] theorem State.raise_status (f : Fault) (w : Word) : (s.raise f w).status = .halted := rfl
@[simp] theorem State.raise_waitReg (f : Fault) (w : Word) : (s.raise f w).waitReg = s.waitReg := rfl
@[simp] theorem State.raise_keyPrev (f : Fault) (w : Word) : (s.raise f w).keyPrev = s.keyPrev := rfl
@[simp] theorem State.raise_faultCause (f : Fault) (w : Word) : (s.raise f w).faultCause = f.cause := rfl
@[simp] theorem State.raise_faultAddr (f : Fault) (w : Word) : (s.raise f w).faultAddr = s.pc - 2 := rfl
@[simp] theorem State.raise_events (f : Fault) (w : Word) : (s.raise f w).events = s.events ++ [{ code := f.event, addr := s.pc - 2, info := w }] := rfl
@[simp] theorem State.raise_beeps (f : Fault) (w : Word) : (s.raise f w).beeps = s.beeps := rfl
@[simp] theorem State.raise_keys (f : Fault) (w : Word) : (s.raise f w).keys = s.keys := rfl
@[simp] theorem State.raise_rnd (f : Fault) (w : Word) : (s.raise f w).rnd = s.rnd := rfl
@[simp] theorem State.raise_samples (f : Fault) (w : Word) : (s.raise f w).samples = s.samples := rfl
@[simp] theorem State.raise_pending (f : Fault) (w : Word) : (s.raise f w).pending = s.pending := rfl
@[simp] theorem State.raise_stepped (f : Fault) (w : Word) : (s.raise f w).stepped = s.stepped := rfl
@[simp] theorem State.raise_params (f : Fault) (w : Word) : (s.raise f w).params = s.params := rfl

/-! ### setKeys: the host's key level -/

@[simp] theorem State.setKeys_v (k : Keys) : (s.setKeys k).v = s.v := rfl
@[simp] theorem State.setKeys_i (k : Keys) : (s.setKeys k).i = s.i := rfl
@[simp] theorem State.setKeys_pc (k : Keys) : (s.setKeys k).pc = s.pc := rfl
@[simp] theorem State.setKeys_stack (k : Keys) : (s.setKeys k).stack = s.stack := rfl
@[simp] theorem State.setKeys_depth (k : Keys) : (s.setKeys k).depth = s.depth := rfl
@[simp] theorem State.setKeys_dt (k : Keys) : (s.setKeys k).dt = s.dt := rfl
@[simp] theorem State.setKeys_st (k : Keys) : (s.setKeys k).st = s.st := rfl
@[simp] theorem State.setKeys_mem (k : Keys) : (s.setKeys k).mem = s.mem := rfl
@[simp] theorem State.setKeys_fb (k : Keys) : (s.setKeys k).fb = s.fb := rfl
@[simp] theorem State.setKeys_status (k : Keys) : (s.setKeys k).status = s.status := rfl
@[simp] theorem State.setKeys_waitReg (k : Keys) : (s.setKeys k).waitReg = s.waitReg := rfl
@[simp] theorem State.setKeys_keyPrev (k : Keys) : (s.setKeys k).keyPrev = s.keyPrev := rfl
@[simp] theorem State.setKeys_faultCause (k : Keys) : (s.setKeys k).faultCause = s.faultCause := rfl
@[simp] theorem State.setKeys_faultAddr (k : Keys) : (s.setKeys k).faultAddr = s.faultAddr := rfl
@[simp] theorem State.setKeys_events (k : Keys) : (s.setKeys k).events = s.events := rfl
@[simp] theorem State.setKeys_beeps (k : Keys) : (s.setKeys k).beeps = s.beeps := rfl
@[simp] theorem State.setKeys_keys (k : Keys) : (s.setKeys k).keys = some k := rfl
@[simp] theorem State.setKeys_rnd (k : Keys) : (s.setKeys k).rnd = s.rnd := rfl
@[simp] theorem State.setKeys_samples (k : Keys) : (s.setKeys k).samples = s.samples := rfl
@[simp] theorem State.setKeys_pending (k : Keys) : (s.setKeys k).pending = s.pending := rfl
@[simp] theorem State.setKeys_stepped (k : Keys) : (s.setKeys k).stepped = s.stepped := rfl
@[simp] theorem State.setKeys_params (k : Keys) : (s.setKeys k).params = s.params := rfl

/-! ### setRnd: the host's random byte -/

@[simp] theorem State.setRnd_v (b : Byte) : (s.setRnd b).v = s.v := rfl
@[simp] theorem State.setRnd_i (b : Byte) : (s.setRnd b).i = s.i := rfl
@[simp] theorem State.setRnd_pc (b : Byte) : (s.setRnd b).pc = s.pc := rfl
@[simp] theorem State.setRnd_stack (b : Byte) : (s.setRnd b).stack = s.stack := rfl
@[simp] theorem State.setRnd_depth (b : Byte) : (s.setRnd b).depth = s.depth := rfl
@[simp] theorem State.setRnd_dt (b : Byte) : (s.setRnd b).dt = s.dt := rfl
@[simp] theorem State.setRnd_st (b : Byte) : (s.setRnd b).st = s.st := rfl
@[simp] theorem State.setRnd_mem (b : Byte) : (s.setRnd b).mem = s.mem := rfl
@[simp] theorem State.setRnd_fb (b : Byte) : (s.setRnd b).fb = s.fb := rfl
@[simp] theorem State.setRnd_status (b : Byte) : (s.setRnd b).status = s.status := rfl
@[simp] theorem State.setRnd_waitReg (b : Byte) : (s.setRnd b).waitReg = s.waitReg := rfl
@[simp] theorem State.setRnd_keyPrev (b : Byte) : (s.setRnd b).keyPrev = s.keyPrev := rfl
@[simp] theorem State.setRnd_faultCause (b : Byte) : (s.setRnd b).faultCause = s.faultCause := rfl
@[simp] theorem State.setRnd_faultAddr (b : Byte) : (s.setRnd b).faultAddr = s.faultAddr := rfl
@[simp] theorem State.setRnd_events (b : Byte) : (s.setRnd b).events = s.events := rfl
@[simp] theorem State.setRnd_beeps (b : Byte) : (s.setRnd b).beeps = s.beeps := rfl
@[simp] theorem State.setRnd_keys (b : Byte) : (s.setRnd b).keys = s.keys := rfl
@[simp] theorem State.setRnd_rnd (b : Byte) : (s.setRnd b).rnd = some b := rfl
@[simp] theorem State.setRnd_samples (b : Byte) : (s.setRnd b).samples = s.samples := rfl
@[simp] theorem State.setRnd_pending (b : Byte) : (s.setRnd b).pending = s.pending := rfl
@[simp] theorem State.setRnd_stepped (b : Byte) : (s.setRnd b).stepped = s.stepped := rfl
@[simp] theorem State.setRnd_params (b : Byte) : (s.setRnd b).params = s.params := rfl

/-! ### markStepped: a step issued -/

@[simp] theorem State.markStepped_v : s.markStepped.v = s.v := rfl
@[simp] theorem State.markStepped_i : s.markStepped.i = s.i := rfl
@[simp] theorem State.markStepped_pc : s.markStepped.pc = s.pc := rfl
@[simp] theorem State.markStepped_stack : s.markStepped.stack = s.stack := rfl
@[simp] theorem State.markStepped_depth : s.markStepped.depth = s.depth := rfl
@[simp] theorem State.markStepped_dt : s.markStepped.dt = s.dt := rfl
@[simp] theorem State.markStepped_st : s.markStepped.st = s.st := rfl
@[simp] theorem State.markStepped_mem : s.markStepped.mem = s.mem := rfl
@[simp] theorem State.markStepped_fb : s.markStepped.fb = s.fb := rfl
@[simp] theorem State.markStepped_status : s.markStepped.status = s.status := rfl
@[simp] theorem State.markStepped_waitReg : s.markStepped.waitReg = s.waitReg := rfl
@[simp] theorem State.markStepped_keyPrev : s.markStepped.keyPrev = s.keyPrev := rfl
@[simp] theorem State.markStepped_faultCause : s.markStepped.faultCause = s.faultCause := rfl
@[simp] theorem State.markStepped_faultAddr : s.markStepped.faultAddr = s.faultAddr := rfl
@[simp] theorem State.markStepped_events : s.markStepped.events = s.events := rfl
@[simp] theorem State.markStepped_beeps : s.markStepped.beeps = s.beeps := rfl
@[simp] theorem State.markStepped_keys : s.markStepped.keys = s.keys := rfl
@[simp] theorem State.markStepped_rnd : s.markStepped.rnd = s.rnd := rfl
@[simp] theorem State.markStepped_samples : s.markStepped.samples = s.samples := rfl
@[simp] theorem State.markStepped_pending : s.markStepped.pending = s.pending := rfl
@[simp] theorem State.markStepped_stepped : s.markStepped.stepped = true := rfl
@[simp] theorem State.markStepped_params : s.markStepped.params = s.params := rfl

/-! ### sampleInputs: a fresh sample -/

@[simp] theorem State.sampleInputs_v : s.sampleInputs.v = s.v := rfl
@[simp] theorem State.sampleInputs_i : s.sampleInputs.i = s.i := rfl
@[simp] theorem State.sampleInputs_pc : s.sampleInputs.pc = s.pc := rfl
@[simp] theorem State.sampleInputs_stack : s.sampleInputs.stack = s.stack := rfl
@[simp] theorem State.sampleInputs_depth : s.sampleInputs.depth = s.depth := rfl
@[simp] theorem State.sampleInputs_dt : s.sampleInputs.dt = s.dt := rfl
@[simp] theorem State.sampleInputs_st : s.sampleInputs.st = s.st := rfl
@[simp] theorem State.sampleInputs_mem : s.sampleInputs.mem = s.mem := rfl
@[simp] theorem State.sampleInputs_fb : s.sampleInputs.fb = s.fb := rfl
@[simp] theorem State.sampleInputs_status : s.sampleInputs.status = s.status := rfl
@[simp] theorem State.sampleInputs_waitReg : s.sampleInputs.waitReg = s.waitReg := rfl
@[simp] theorem State.sampleInputs_keyPrev : s.sampleInputs.keyPrev = s.keyPrev := rfl
@[simp] theorem State.sampleInputs_faultCause : s.sampleInputs.faultCause = s.faultCause := rfl
@[simp] theorem State.sampleInputs_faultAddr : s.sampleInputs.faultAddr = s.faultAddr := rfl
@[simp] theorem State.sampleInputs_events : s.sampleInputs.events = s.events := rfl
@[simp] theorem State.sampleInputs_beeps : s.sampleInputs.beeps = s.beeps := rfl
@[simp] theorem State.sampleInputs_keys : s.sampleInputs.keys = s.keys := rfl
@[simp] theorem State.sampleInputs_rnd : s.sampleInputs.rnd = s.rnd := rfl
@[simp] theorem State.sampleInputs_samples : s.sampleInputs.samples = s.samples + 1 := rfl
@[simp] theorem State.sampleInputs_pending : s.sampleInputs.pending = s.pending := rfl
@[simp] theorem State.sampleInputs_stepped : s.sampleInputs.stepped = true := rfl
@[simp] theorem State.sampleInputs_params : s.sampleInputs.params = s.params := rfl

/-! ### resetEvent: the reset event -/

@[simp] theorem State.resetEvent_v : s.resetEvent.v = State.reset.v := rfl
@[simp] theorem State.resetEvent_i : s.resetEvent.i = State.reset.i := rfl
@[simp] theorem State.resetEvent_pc : s.resetEvent.pc = State.reset.pc := rfl
@[simp] theorem State.resetEvent_stack : s.resetEvent.stack = State.reset.stack := rfl
@[simp] theorem State.resetEvent_depth : s.resetEvent.depth = State.reset.depth := rfl
@[simp] theorem State.resetEvent_dt : s.resetEvent.dt = State.reset.dt := rfl
@[simp] theorem State.resetEvent_st : s.resetEvent.st = State.reset.st := rfl
@[simp] theorem State.resetEvent_mem : s.resetEvent.mem = State.reset.mem := rfl
@[simp] theorem State.resetEvent_fb : s.resetEvent.fb = State.reset.fb := rfl
@[simp] theorem State.resetEvent_status : s.resetEvent.status = State.reset.status := rfl
@[simp] theorem State.resetEvent_waitReg : s.resetEvent.waitReg = State.reset.waitReg := rfl
@[simp] theorem State.resetEvent_keyPrev : s.resetEvent.keyPrev = State.reset.keyPrev := rfl
@[simp] theorem State.resetEvent_faultCause : s.resetEvent.faultCause = State.reset.faultCause := rfl
@[simp] theorem State.resetEvent_faultAddr : s.resetEvent.faultAddr = State.reset.faultAddr := rfl
@[simp] theorem State.resetEvent_events : s.resetEvent.events = State.reset.events := rfl
@[simp] theorem State.resetEvent_beeps : s.resetEvent.beeps = State.reset.beeps := rfl
@[simp] theorem State.resetEvent_keys : s.resetEvent.keys = s.keys := rfl
@[simp] theorem State.resetEvent_rnd : s.resetEvent.rnd = s.rnd := rfl
@[simp] theorem State.resetEvent_samples : s.resetEvent.samples = s.samples := rfl
@[simp] theorem State.resetEvent_pending : s.resetEvent.pending = s.pending := rfl
@[simp] theorem State.resetEvent_stepped : s.resetEvent.stepped = State.reset.stepped := rfl
@[simp] theorem State.resetEvent_params : s.resetEvent.params = s.params := rfl

end Sys2Proof.Machine
end

