-- ==== Sys2Proof/Laws/Memory.lean ====
section
/-! SUPPORT. What memory does: a read after a write, the canonical form, and the masked byte accesses (20_memory.md R37, R45). -/

namespace Sys2Proof.Machine

theorem maskAddr_eq (a : Word) : maskAddr a = a.toNat % 4096 := by
  show (a &&& 0xFFF#16).toNat = a.toNat % 4096
  rw [BitVec.toNat_and]
  exact Nat.and_two_pow_sub_one_eq_mod a.toNat 12

theorem maskAddr_lt (a : Word) : maskAddr a < memSize := by
  rw [maskAddr_eq]; exact Nat.mod_lt _ (by decide)

/-- The masked I + k as a number. -/
theorem maskAddr_indexAddr (s : State) (k : Nat) : maskAddr (s.indexAddr k) = (s.i.toNat + k) % 4096 := by
  rw [maskAddr_eq, State.indexAddr, BitVec.toNat_add, BitVec.toNat_ofNat]
  omega

theorem Memory.read_erase (m : Memory) (k a : Nat) :
    (m.erase k).read a = if a = k then Memory.unlisted else m.read a := by
  induction m with
  | nil => simp [Memory.erase, Memory.read]
  | cons c rest ih =>
    obtain ⟨x, y⟩ := c
    by_cases hx : x = k
    · subst hx
      by_cases ha : a = x
      · subst ha; simpa [Memory.erase] using ih
      · simp [Memory.erase, Memory.read, ih, ha, Ne.symm ha]
    · by_cases hxa : x = a
      · subst hxa; simp [Memory.erase, Memory.read, hx]
      · simp [Memory.erase, Memory.read, hx, hxa, ih]

theorem Memory.read_insert (m : Memory) (k a : Nat) (b : Byte) (hk : ∀ c ∈ m, c.1 ≠ k) : (m.insert k b).read a = if a = k then b else m.read a := by
  induction m with
  | nil => simp [Memory.insert, Memory.read, eq_comm]
  | cons c rest ih =>
    obtain ⟨x, y⟩ := c
    have hx : x ≠ k := hk (x, y) (by simp)
    have ih := ih (fun c hc => hk c (by simp [hc]))
    by_cases hlt : k < x
    · by_cases ha : a = k
      · simp [Memory.insert, Memory.read, hlt, ha]
      · simp [Memory.insert, Memory.read, hlt, ha, Ne.symm ha]
    · by_cases hxa : x = a
      · subst hxa; simp [Memory.insert, Memory.read, hlt, hx]
      · simp [Memory.insert, Memory.read, hlt, hxa, ih]

theorem Memory.erase_ne (m : Memory) (k : Nat) : ∀ c ∈ m.erase k, c.1 ≠ k := by
  induction m with
  | nil => simp [Memory.erase]
  | cons c rest ih =>
    obtain ⟨x, y⟩ := c
    by_cases hx : x = k
    · simpa [Memory.erase, hx] using ih
    · simpa [Memory.erase, hx] using ih

/-- A read after a write: the byte written at that address, and every other address as before. -/
theorem Memory.read_write (m : Memory) (k a : Nat) (b : Byte) :
    (m.write k b).read a = if a = k then b else m.read a := by
  by_cases hb : b = Memory.unlisted
  · simp [Memory.write, hb, Memory.read_erase]
  · rw [Memory.write, if_neg hb, Memory.read_insert _ _ _ _ (Memory.erase_ne m k), Memory.read_erase]
    by_cases ha : a = k <;> simp [ha]

theorem Memory.read_write_same (m : Memory) (k : Nat) (b : Byte) : (m.write k b).read k = b := by
  simp [Memory.read_write]

theorem Memory.read_write_ne (m : Memory) {k a : Nat} (b : Byte) (h : a ≠ k) : (m.write k b).read a = m.read a := by
  simp [Memory.read_write, h]

theorem Memory.wfFrom_mono {m : Memory} {lo lo' : Nat} (h : m.wfFrom lo = true) (hle : lo' ≤ lo) :
    m.wfFrom lo' = true := by
  cases m with
  | nil => rfl
  | cons c rest =>
    simp only [Memory.wfFrom, Bool.and_eq_true, decide_eq_true_eq] at h ⊢
    exact ⟨⟨⟨by omega, h.1.1.2⟩, h.1.2⟩, h.2⟩

theorem Memory.wfFrom_erase {m : Memory} (k : Nat) : ∀ {lo : Nat}, m.wfFrom lo = true → (m.erase k).wfFrom lo = true := by
  induction m with
  | nil => intro lo _; rfl
  | cons c rest ih =>
    obtain ⟨x, y⟩ := c
    intro lo h
    simp only [Memory.wfFrom, Bool.and_eq_true, decide_eq_true_eq] at h
    by_cases hx : x = k
    · simp only [Memory.erase, if_pos hx]
      exact Memory.wfFrom_mono (ih h.2) (by omega)
    · simp only [Memory.erase, if_neg hx, Memory.wfFrom, Bool.and_eq_true, decide_eq_true_eq]
      exact ⟨h.1, ih h.2⟩

theorem Memory.wfFrom_insert {m : Memory} {k : Nat} {b : Byte} (hb : b ≠ Memory.unlisted) (hk : k < memSize) :
    ∀ {lo : Nat}, (∀ c ∈ m, c.1 ≠ k) → m.wfFrom lo = true → lo ≤ k → (m.insert k b).wfFrom lo = true := by
  induction m with
  | nil => intro lo _ _ hlo; simp [Memory.insert, Memory.wfFrom, hb, hlo, hk]
  | cons c rest ih =>
    obtain ⟨x, y⟩ := c
    intro lo hne h hlo
    have hx : x ≠ k := hne (x, y) (by simp)
    simp only [Memory.wfFrom, Bool.and_eq_true, decide_eq_true_eq] at h
    by_cases hlt : k < x
    · simp only [Memory.insert, if_pos hlt, Memory.wfFrom, Bool.and_eq_true, decide_eq_true_eq]
      exact ⟨⟨⟨hlo, hk⟩, by simpa using hb⟩, ⟨⟨by omega, h.1.1.2⟩, h.1.2⟩, h.2⟩
    · simp only [Memory.insert, if_neg hlt, Memory.wfFrom, Bool.and_eq_true, decide_eq_true_eq]
      exact ⟨h.1, ih (fun c hc => hne c (by simp [hc])) h.2 (by omega)⟩

/-- Every write keeps the canonical form. -/
theorem Memory.wf_write {m : Memory} {k : Nat} (b : Byte) (h : m.wf = true) (hk : k < memSize) :
    (m.write k b).wf = true := by
  by_cases hb : b = Memory.unlisted
  · rw [Memory.write, if_pos hb]; exact Memory.wfFrom_erase k h
  · rw [Memory.write, if_neg hb]
    exact Memory.wfFrom_insert hb hk (Memory.erase_ne m k) (Memory.wfFrom_erase k h) (Nat.zero_le k)

/-- A canonical list from `lo` on reads as unlisted below `lo`. -/
theorem Memory.read_of_lt {m : Memory} : ∀ {lo k : Nat}, m.wfFrom lo = true → k < lo → m.read k = Memory.unlisted := by
  induction m with
  | nil => intros; rfl
  | cons c rest ih =>
    obtain ⟨a, b⟩ := c
    intro lo k hwf hk
    simp only [Memory.wfFrom, Bool.and_eq_true, decide_eq_true_eq] at hwf
    have hne : a ≠ k := by omega
    simp only [Memory.read, if_neg hne]
    exact ih hwf.2 (by omega)

/-- A canonical list reads as unlisted from 4096 on. -/
theorem Memory.read_of_ge {m : Memory} : ∀ {lo k : Nat}, m.wfFrom lo = true → memSize ≤ k → m.read k = Memory.unlisted := by
  induction m with
  | nil => intros; rfl
  | cons c rest ih =>
    obtain ⟨a, b⟩ := c
    intro lo k hwf hk
    simp only [Memory.wfFrom, Bool.and_eq_true, decide_eq_true_eq] at hwf
    have hne : a ≠ k := by omega
    simp only [Memory.read, if_neg hne]
    exact ih hwf.2 hk

/-- The masked accesses (20_memory.md R37). -/
theorem State.readByte_eq (s : State) (a : Word) : s.readByte a = s.mem.read (a.toNat % 4096) := by
  rw [State.readByte, maskAddr_eq]

theorem State.readByte_writeByte (s : State) (a c : Word) (b : Byte) :
    (s.writeByte a b).readByte c = if maskAddr c = maskAddr a then b else s.readByte c :=
  Memory.read_write s.mem (maskAddr a) (maskAddr c) b

theorem State.writeByte_wf {s : State} (a : Word) (b : Byte) (h : s.mem.wf = true) : (s.writeByte a b).mem.wf = true :=
  Memory.wf_write b h (maskAddr_lt a)

theorem reset_mem_wf : State.reset.mem.wf = true := rfl

end Sys2Proof.Machine
end

