-- ==== Sys2Proof/Laws/Ops.lean ====
section
/-! SUPPORT. What each shared operation does, once: registers, stack, flags and their write-back, the keypad, and the state a
step's events act on. -/

namespace Sys2Proof.Machine

/-! ### Registers -/

theorem State.readV_writeV (s : State) (r q : Reg) (b : Byte) :
    (s.writeV r b).readV q = if q = r then b else s.readV q := by
  simp only [State.readV, State.writeV, Fin.getElem_fin, Vector.getElem_set, Fin.ext_iff, eq_comm]

@[simp] theorem State.readV_eq (s : State) (r : Reg) : s.readV r = s.v[r] := rfl

theorem State.writeV_get (s : State) (r q : Reg) (b : Byte) : (s.writeV r b).v[q] = if q = r then b else s.v[q] :=
  State.readV_writeV s r q b

/-! ### The stack (R69, R71) -/

theorem State.push_some (s : State) (a : Word) (h : s.depth.val < 16) :
    s.push a = some { s with stack := s.stack.set s.depth.val a, depth := ⟨s.depth.val + 1, by omega⟩ } := by
  rw [State.push, dif_pos h]

theorem State.push_none (s : State) (a : Word) (h : ¬ s.depth.val < 16) : s.push a = none := by
  rw [State.push, dif_neg h]

theorem State.pop_some (s : State) (h : 0 < s.depth.val) :
    s.pop = some (s.stack[s.depth.val - 1]'(by omega), { s with depth := ⟨s.depth.val - 1, by omega⟩ }) := by
  rw [State.pop, dif_pos h]

theorem State.pop_none (s : State) (h : ¬ 0 < s.depth.val) : s.pop = none := by
  rw [State.pop, dif_neg h]

/-! ### Flags and write-back (R79, R80) -/

theorem addCarry_result (a b : Byte) : (addCarry a b).result = a + b := by
  apply BitVec.eq_of_toNat_eq
  simp [addCarry]

theorem addCarry_flag (a b : Byte) : (addCarry a b).flag = decide (a.toNat + b.toNat > 255) := rfl

theorem subNoBorrow_result (a b : Byte) : (subNoBorrow a b).result = a - b := by
  apply BitVec.eq_of_toNat_eq
  simp only [subNoBorrow, BitVec.toNat_ofNat, BitVec.toNat_sub]
  omega

theorem subNoBorrow_flag (a b : Byte) : (subNoBorrow a b).flag = decide (a.toNat ≥ b.toNat) := rfl

theorem State.writeBack_of_ne {x : Reg} (s : State) (o : AluOut) (h : x ≠ VF) :
    s.writeBack x o = (s.writeV x o.result).writeV VF (flagByte o.flag) := by
  rw [State.writeBack, if_pos h]

theorem State.writeBack_VF (s : State) (o : AluOut) :
    s.writeBack VF o =
      s.writeV VF (if s.params.vfWriteOrder = .resultLast then o.result else flagByte o.flag) := by
  rw [State.writeBack, if_neg (by simp)]
  cases h : s.params.vfWriteOrder <;> simp

/-- Write-back changes only the register file. -/
theorem State.writeBack_frame (s : State) (x : Reg) (o : AluOut) : s.writeBack x o = { s with v := (s.writeBack x o).v } := by
  by_cases h : x = VF
  · subst h; rw [State.writeBack_VF]; rfl
  · rw [State.writeBack_of_ne s o h]; rfl

/-- The registers after write-back, one by one (R80). -/
theorem State.writeBack_get (s : State) (x q : Reg) (o : AluOut) :
    (s.writeBack x o).v[q] =
      if q = VF then (if x = VF ∧ s.params.vfWriteOrder = .resultLast then o.result else flagByte o.flag)
      else if q = x then o.result else s.v[q] := by
  by_cases h : x = VF
  · subst h; rw [State.writeBack_VF, State.writeV_get]
    by_cases hq : q = VF <;> simp [hq]
  · rw [State.writeBack_of_ne s o h, State.writeV_get, State.writeV_get]
    simp [h]

/-! ### The keypad (R106, R110) -/

theorem State.keyIndex_some (s : State) (x : Reg) (h : s.v[x].toNat < 16) : s.keyIndex x = some ⟨s.v[x].toNat, h⟩ := by
  rw [State.keyIndex]; exact dif_pos h

theorem State.keyIndex_none (s : State) (x : Reg) (h : ¬ s.v[x].toNat < 16) : s.keyIndex x = none := by
  rw [State.keyIndex]; exact dif_neg h

theorem lowestKey_some {k : Keys} {j : Fin 16} (h : lowestKey k = some j) :
    k.getLsbD j.val = true ∧ ∀ l : Fin 16, l < j → k.getLsbD l.val = false := by
  have key : ∀ (l : List (Fin 16)), l.Pairwise (· < ·) → (l.find? fun j => k.getLsbD j.val) = some j →
      k.getLsbD j.val = true ∧ ∀ q ∈ l, q < j → k.getLsbD q.val = false := by
    intro l hp hf
    induction l with
    | nil => simp at hf
    | cons a rest ih =>
      rw [List.pairwise_cons] at hp
      by_cases ha : k.getLsbD a.val = true
      · rw [List.find?_cons_of_pos (by simpa using ha)] at hf
        obtain rfl : a = j := by simpa using hf
        refine ⟨ha, fun q hq hlt => ?_⟩
        rcases List.mem_cons.mp hq with rfl | hq
        · exact absurd hlt (lt_irrefl _)
        · exact absurd (hp.1 q hq) (not_lt.mpr hlt.le)
      · rw [List.find?_cons_of_neg (by simpa using ha)] at hf
        obtain ⟨h1, h2⟩ := ih hp.2 hf
        refine ⟨h1, fun q hq hlt => ?_⟩
        rcases List.mem_cons.mp hq with rfl | hq
        · simpa using ha
        · exact h2 q hq hlt
  have all : ∀ l : Fin 16, l ∈ ([0, 1, 2, 3, 4, 5, 6, 7, 8, 9, 10, 11, 12, 13, 14, 15] : List (Fin 16)) := by decide
  obtain ⟨h1, h2⟩ := key _ (by decide) h
  exact ⟨h1, fun l hl => h2 l (all l) hl⟩

theorem lowestKey_none {k : Keys} (h : lowestKey k = none) : k = 0 := by
  apply BitVec.eq_of_getLsbD_eq
  intro i hi
  have := (List.find?_eq_none.mp h) ⟨i, hi⟩ (by revert i; decide)
  simpa using this

/-! ### Latched loops -/

/-- The register file after loading the registers of a list: FX65's loop (R98). -/
theorem foldl_writeV_get (f : Reg → Byte) (l : List Reg) (s : State) (q : Reg) :
    (l.foldl (fun t k => t.writeV k (f k)) s).v[q] = if q ∈ l then f q else s.v[q] := by
  induction l generalizing s with
  | nil => simp
  | cons k rest ih =>
    rw [List.foldl_cons, ih, State.writeV_get]
    by_cases hq : q ∈ rest
    · simp [hq]
    · by_cases hk : q = k <;> simp [hq, hk]

theorem foldl_writeV_frame (f : Reg → Byte) (l : List Reg) (s : State) :
    l.foldl (fun t k => t.writeV k (f k)) s = { s with v := (l.foldl (fun t k => t.writeV k (f k)) s).v } := by
  induction l generalizing s with
  | nil => rfl
  | cons k rest ih => rw [List.foldl_cons, ih (s.writeV k (f k))]; rfl

theorem foldl_writeByte_frame (g : Reg → Word) (f : Reg → Byte) (l : List Reg) (s : State) :
    l.foldl (fun t k => t.writeByte (g k) (f k)) s =
      { s with mem := (l.foldl (fun t k => t.writeByte (g k) (f k)) s).mem } := by
  induction l generalizing s with
  | nil => rfl
  | cons k rest ih => rw [List.foldl_cons, ih (s.writeByte (g k) (f k))]; rfl

/-- FX55's loop leaves an address alone that none of its stores has (R97). -/
theorem foldl_writeByte_other (g : Reg → Word) (f : Reg → Byte) (l : List Reg) (s : State) (a : Nat)
    (h : ∀ k ∈ l, a ≠ maskAddr (g k)) : (l.foldl (fun t k => t.writeByte (g k) (f k)) s).mem.read a = s.mem.read a := by
  induction l generalizing s with
  | nil => rfl
  | cons k rest ih =>
    rw [List.foldl_cons, ih _ (fun q hq => h q (by simp [hq])), State.writeByte_mem,
      Memory.read_write_ne _ _ (h k (by simp))]

/-- FX55's loop stores each of its bytes, its addresses being distinct (R97). -/
theorem foldl_writeByte_stored (g : Reg → Word) (f : Reg → Byte) (l : List Reg) (s : State) (q : Reg) (hq : q ∈ l)
    (hd : l.Pairwise fun a b => maskAddr (g a) ≠ maskAddr (g b)) :
    (l.foldl (fun t k => t.writeByte (g k) (f k)) s).mem.read (maskAddr (g q)) = f q := by
  induction l generalizing s with
  | nil => simp at hq
  | cons k rest ih =>
    rw [List.pairwise_cons] at hd
    rcases List.mem_cons.mp hq with rfl | hq
    · rw [List.foldl_cons, foldl_writeByte_other _ _ _ _ _ (fun p hp => hd.1 p hp), State.writeByte_mem,
        Memory.read_write_same]
    · exact ih _ hq hd.2

theorem mem_regsUpTo (x k : Reg) : k ∈ regsUpTo x ↔ k ≤ x := by revert x k; decide

theorem regsUpTo_pairwise (x : Reg) : (regsUpTo x).Pairwise (· < ·) := by revert x; decide

/-- The registers FX65 leaves (R98). -/
theorem State.loadRegs_get (s : State) (x q : Reg) :
    (s.loadRegs x).v[q] = if q ≤ x then s.mem.read ((s.i.toNat + q.val) % 4096) else s.v[q] := by
  rw [State.loadRegs, foldl_writeV_get (fun k => s.readByte (s.indexAddr k.val))]
  simp only [mem_regsUpTo, State.readByte, maskAddr_indexAddr]

theorem State.loadRegs_frame (s : State) (x : Reg) : s.loadRegs x = { s with v := (s.loadRegs x).v } :=
  foldl_writeV_frame _ _ _

/-- The bytes FX55 stores (R97). -/
theorem State.storeRegs_stored (s : State) (x q : Reg) (hq : q ≤ x) :
    (s.storeRegs x).mem.read ((s.i.toNat + q.val) % 4096) = s.v[q] := by
  rw [← maskAddr_indexAddr]
  refine foldl_writeByte_stored _ _ _ s q ((mem_regsUpTo x q).2 hq) ((regsUpTo_pairwise x).imp fun {a b} hab => ?_)
  rw [maskAddr_indexAddr, maskAddr_indexAddr]
  have : a.val < b.val := hab
  omega

/-- The bytes FX55 leaves alone (R97). -/
theorem State.storeRegs_other (s : State) (x : Reg) (a : Nat)
    (h : ∀ k : Reg, k ≤ x → a ≠ (s.i.toNat + k.val) % 4096) : (s.storeRegs x).mem.read a = s.mem.read a :=
  foldl_writeByte_other _ _ _ _ _ fun k hk => by
    rw [maskAddr_indexAddr]; exact h k ((mem_regsUpTo x k).1 hk)

theorem State.storeRegs_frame (s : State) (x : Reg) : s.storeRegs x = { s with mem := (s.storeRegs x).mem } :=
  foldl_writeByte_frame _ _ _ _

theorem foldl_writeByte_wf (g : Reg → Word) (f : Reg → Byte) (l : List Reg) (s : State) (h : s.mem.wf = true) :
    (l.foldl (fun t k => t.writeByte (g k) (f k)) s).mem.wf = true := by
  induction l generalizing s with
  | nil => exact h
  | cons k rest ih => exact ih _ (State.writeByte_wf _ _ h)

theorem State.storeRegs_wf (s : State) (x : Reg) (h : s.mem.wf = true) : (s.storeRegs x).mem.wf = true :=
  foldl_writeByte_wf _ _ _ _ h

/-! ### Immediates -/

theorem zext16_eq (nnn : Addr12) : zext16 nnn = BitVec.ofNat 16 nnn.toNat := (BitVec.ofNat_toNat 16 nnn).symm

theorem byteWord_eq (b : Byte) : byteWord b = BitVec.ofNat 16 b.toNat := (BitVec.ofNat_toNat 16 b).symm

/-- FX29's address as a number (R95). -/
theorem State.fontAddr_eq (s : State) (x : Reg) : s.fontAddr x =
    BitVec.ofNat 16 ((s.params.fontBase.toNat + s.params.fontStride * (s.v[x].toNat % 16)) % 4096) := by
  have h : (s.readV x &&& 0xF).toNat = s.v[x].toNat % 16 := by
    rw [BitVec.toNat_and]; exact Nat.and_two_pow_sub_one_eq_mod _ 4
  apply BitVec.eq_of_toNat_eq
  rw [State.fontAddr, h]
  have := maskAddr_eq
    (BitVec.ofNat 16 (s.params.fontBase.toNat + s.params.fontStride * (s.v[x].toNat % 16)))
  rw [maskAddr] at this
  rw [this, BitVec.toNat_ofNat, BitVec.toNat_ofNat]
  omega

end Sys2Proof.Machine
end

