-- ==== Sys2Proof/Laws/Display.lean ====
section
/-! SUPPORT. What drawing does to the display: a sprite is a list of distinct pixels, and drawing flips each of them once
(43_display.md R100 to R105). -/

namespace Sys2Proof.Machine

theorem Framebuffer.pixel_flip (fb : Framebuffer) (x a : Fin 64) (y b : Fin 32) :
    (fb.flip x y).pixel a b = if a = x ∧ b = y then !fb.pixel a b else fb.pixel a b := by
  simp only [Framebuffer.pixel, Framebuffer.flip, Fin.getElem_fin, Vector.getElem_set]
  by_cases hy : b = y
  · subst hy
    by_cases hx : a = x
    · subst hx; simp
    · simp [hx, Fin.val_ne_of_ne (Ne.symm hx)]
  · simp [hy, Fin.val_ne_of_ne (Ne.symm hy)]

theorem Framebuffer.pixel_blank (x : Fin 64) (y : Fin 32) : Framebuffer.blank.pixel x y = false := by
  simp [Framebuffer.blank, Framebuffer.pixel]

/-- Displays with the same pixels are equal. -/
theorem Framebuffer.ext_pixel {fb fb' : Framebuffer} (h : ∀ x y, fb.pixel x y = fb'.pixel x y) : fb = fb' := by
  apply Vector.ext
  intro y hy
  apply Vector.ext
  intro x hx
  exact h ⟨x, hx⟩ ⟨y, hy⟩

/-- A sprite bit of value 1 on each pixel of a list, in order. -/
def Drawing.plotAll (d : Drawing) (l : List (Fin 64 × Fin 32)) : Drawing := l.foldl (fun d p => d.plot p.1 p.2) d

/-- Plotting distinct pixels flips each of them and collides where one was set (R103, R105). -/
theorem Drawing.plotAll_spec (l : List (Fin 64 × Fin 32)) (d : Drawing) (h : l.Nodup) :
    (∀ x y, (d.plotAll l).fb.pixel x y = xor (d.fb.pixel x y) (decide ((x, y) ∈ l))) ∧
    ((d.plotAll l).collided = true ↔ d.collided = true ∨ ∃ p ∈ l, d.fb.pixel p.1 p.2 = true) := by
  induction l generalizing d with
  | nil => simp [Drawing.plotAll]
  | cons q rest ih =>
    rw [List.nodup_cons] at h
    obtain ⟨ih1, ih2⟩ := ih (d.plot q.1 q.2) h.2
    have hfb : ∀ x y, (d.plot q.1 q.2).fb.pixel x y = xor (d.fb.pixel x y) (decide ((x, y) = q)) := by
      intro x y
      rw [Drawing.plot, Framebuffer.pixel_flip]
      by_cases hq : (x, y) = q
      · subst hq; simp
      · have : ¬ (x = q.1 ∧ y = q.2) := fun hc => hq (Prod.ext hc.1 hc.2)
        simp [hq, this]
    refine ⟨fun x y => ?_, ?_⟩
    · show ((d.plot q.1 q.2).plotAll rest).fb.pixel x y = _
      rw [ih1, hfb]
      by_cases hq : (x, y) = q
      · subst hq; simp [h.1]
      · simp [hq]
    · show ((d.plot q.1 q.2).plotAll rest).collided = true ↔ _
      rw [ih2]
      have hne : ∀ p ∈ rest, (d.plot q.1 q.2).fb.pixel p.1 p.2 = d.fb.pixel p.1 p.2 := by
        intro p hp
        rw [hfb]
        have : p ≠ q := fun e => h.1 (e ▸ hp)
        simp [this]
      constructor
      · rintro (hc | ⟨p, hp, hpix⟩)
        · rw [Drawing.plot, Bool.or_eq_true] at hc
          rcases hc with hc | hc
          · exact .inl hc
          · exact .inr ⟨q, by simp, hc⟩
        · exact .inr ⟨p, by simp [hp], by rwa [hne p hp] at hpix⟩
      · rintro (hc | ⟨p, hp, hpix⟩)
        · exact .inl (by rw [Drawing.plot, hc]; rfl)
        · rcases List.mem_cons.mp hp with rfl | hp
          · exact .inl (by rw [Drawing.plot, hpix]; simp)
          · exact .inr ⟨p, hp, by rwa [hne p hp]⟩

/-- The pixels under the 1 bits of one sprite row (R100, R101). -/
def rowPixels (x0 y : Nat) (row : Byte) : List (Fin 64 × Fin 32) :=
  (([0, 1, 2, 3, 4, 5, 6, 7] : List Nat).filter fun b => row.getLsbD (7 - b)).map fun b =>
    (Fin.ofNat 64 (x0 + b), Fin.ofNat 32 y)

/-- The pixels under the 1 bits of a sprite (R103). -/
def spritePixels (x0 : Nat) : Nat → List Byte → List (Fin 64 × Fin 32)
  | _, [] => []
  | y, row :: rest => rowPixels x0 y row ++ spritePixels x0 (y + 1) rest

theorem Drawing.row_eq (d : Drawing) (x0 y : Nat) (row : Byte) : d.row x0 y row = d.plotAll (rowPixels x0 y row) := by
  unfold Drawing.row rowPixels
  generalize ([0, 1, 2, 3, 4, 5, 6, 7] : List Nat) = l
  induction l generalizing d with
  | nil => rfl
  | cons b rest ih =>
    rw [List.foldl_cons, ih]
    by_cases hb : row.getLsbD (7 - b) = true
    · simp only [Drawing.bit, hb, if_true, List.filter_cons, List.map_cons]; rfl
    · simp only [Drawing.bit, hb, if_false, List.filter_cons, Bool.false_eq_true]

/-- Drawing the rows of a sprite is plotting its pixels (R103). -/
theorem Drawing.rows_eq (x0 : Nat) (rows : List Byte) : ∀ (y : Nat) (d : Drawing),
    Drawing.rows x0 y rows d = d.plotAll (spritePixels x0 y rows) := by
  induction rows with
  | nil => intros; rfl
  | cons row rest ih =>
    intro y d
    rw [Drawing.rows, ih, Drawing.row_eq, spritePixels, Drawing.plotAll, Drawing.plotAll, Drawing.plotAll,
      List.foldl_append]

theorem mem_rowPixels (x0 y : Nat) (row : Byte) (p : Fin 64 × Fin 32) : p ∈ rowPixels x0 y row ↔
    ∃ b, b < 8 ∧ row.getLsbD (7 - b) = true ∧ p = (Fin.ofNat 64 (x0 + b), Fin.ofNat 32 y) := by
  have h8 : ∀ b, b ∈ ([0, 1, 2, 3, 4, 5, 6, 7] : List Nat) ↔ b < 8 := by intro b; simp; omega
  simp only [rowPixels, List.mem_map, List.mem_filter, h8]
  constructor
  · rintro ⟨b, ⟨h1, h2⟩, rfl⟩; exact ⟨b, h1, h2, rfl⟩
  · rintro ⟨b, h1, h2, rfl⟩; exact ⟨b, ⟨h1, h2⟩, rfl⟩

theorem mem_spritePixels (x0 : Nat) (rows : List Byte) (p : Fin 64 × Fin 32) : ∀ y, p ∈ spritePixels x0 y rows ↔
    ∃ (r : Nat) (h : r < rows.length) (b : Nat), b < 8 ∧ rows[r].getLsbD (7 - b) = true ∧
      p = (Fin.ofNat 64 (x0 + b), Fin.ofNat 32 (y + r)) := by
  induction rows with
  | nil => intro y; simp [spritePixels]
  | cons row rest ih =>
    intro y
    rw [spritePixels, List.mem_append, mem_rowPixels, ih]
    constructor
    · rintro (⟨b, h1, h2, rfl⟩ | ⟨r, h, b, h1, h2, rfl⟩)
      · exact ⟨0, by simp, b, h1, by simpa using h2, rfl⟩
      · exact ⟨r + 1, by simpa using h, b, h1, by simpa using h2, by rw [Nat.add_assoc, Nat.add_comm 1]⟩
    · rintro ⟨r, h, b, h1, h2, rfl⟩
      cases r with
      | zero => exact .inl ⟨b, h1, by simpa using h2, rfl⟩
      | succ r =>
        exact .inr ⟨r, by simpa using h, b, h1, by simpa using h2, by rw [Nat.add_assoc, Nat.add_comm 1]⟩

theorem ofNat_eq_ofNat_iff {n : Nat} [NeZero n] (a b : Nat) : Fin.ofNat n a = Fin.ofNat n b ↔ a % n = b % n := by
  rw [Fin.ext_iff]; rfl

/-- No pixel is visited twice (R105). -/
theorem spritePixels_nodup (x0 : Nat) (rows : List Byte) : ∀ y, rows.length ≤ 32 → (spritePixels x0 y rows).Nodup := by
  induction rows with
  | nil => intros; exact List.nodup_nil
  | cons row rest ih =>
    intro y hlen
    rw [spritePixels, List.nodup_append]
    refine ⟨?_, ih (y + 1) (by simp at hlen; omega), ?_⟩
    · unfold rowPixels
      refine List.Nodup.map_on ?_ (List.Nodup.filter _ (by decide))
      intro a ha b hb hab
      have h8 : ∀ b, b ∈ ([0, 1, 2, 3, 4, 5, 6, 7] : List Nat) → b < 8 := by intro b; simp; omega
      have ha := h8 a (List.mem_filter.mp ha).1
      have hb := h8 b (List.mem_filter.mp hb).1
      have := (ofNat_eq_ofNat_iff _ _).mp (Prod.ext_iff.mp hab).1
      omega
    · intro p hp q hq hpq
      subst hpq
      obtain ⟨b, _, _, rfl⟩ := (mem_rowPixels _ _ _ _).mp hp
      obtain ⟨r, hr, c, _, _, hc⟩ := (mem_spritePixels _ _ _ _).mp hq
      have := (ofNat_eq_ofNat_iff _ _).mp (Prod.ext_iff.mp hc).2
      simp at hlen
      omega

/-- What `drawSprite` leaves: each pixel flipped exactly where a 1 bit of the sprite lies, and the collision flag (R103). -/
theorem State.sprite_spec (s : State) (x y : Reg) (n : Fin 16) :
    (∀ px py, (s.sprite x y n).fb.pixel px py = xor (s.fb.pixel px py)
      (decide ((px, py) ∈ spritePixels (s.v[x].toNat % 64) (s.v[y].toNat % 32) (s.spriteRows n)))) ∧
    ((s.sprite x y n).collided = true ↔
      ∃ p ∈ spritePixels (s.v[x].toNat % 64) (s.v[y].toNat % 32) (s.spriteRows n), s.fb.pixel p.1 p.2 = true) := by
  have hlen : (s.spriteRows n).length ≤ 32 := by
    rw [State.spriteRows, List.length_map, List.length_range]; omega
  have := Drawing.plotAll_spec _ { fb := s.fb, collided := false }
    (spritePixels_nodup (s.v[x].toNat % 64) (s.spriteRows n) (s.v[y].toNat % 32) hlen)
  rw [← Drawing.rows_eq] at this
  exact ⟨this.1, this.2.trans (by simp)⟩

end Sys2Proof.Machine
end

