-- ==== Sys2Proof/Laws/Encoding.lean ====
section
/-! SUPPORT. The fields of a word and the formats as numbers (30_encoding.md R52, R53), and what a row's mask says about the
fields. -/

namespace Sys2Proof

/-! ### A word's fields as numbers -/

theorem fieldOp_toNat (w : Word) : (fieldOp w).toNat = w.toNat / 4096 % 16 := by
  simp [fieldOp, Nat.shiftRight_eq_div_pow]

theorem fieldX_val (w : Word) : (fieldX w).val = w.toNat / 256 % 16 := by
  show (w.extractLsb' 8 4).toNat = _
  simp [Nat.shiftRight_eq_div_pow]

theorem fieldY_val (w : Word) : (fieldY w).val = w.toNat / 16 % 16 := by
  show (w.extractLsb' 4 4).toNat = _
  simp [Nat.shiftRight_eq_div_pow]

theorem fieldN_val (w : Word) : (fieldN w).val = w.toNat % 16 := by
  show (w.extractLsb' 0 4).toNat = _
  simp

theorem fieldF_toNat (w : Word) : (fieldF w).toNat = w.toNat % 16 := by simp [fieldF]

theorem fieldNN_toNat (w : Word) : (fieldNN w).toNat = w.toNat % 256 := by simp [fieldNN]

theorem fieldNNN_toNat (w : Word) : (fieldNNN w).toNat = w.toNat % 4096 := by simp [fieldNNN]

/-! ### The formats as numbers -/

theorem append_toNat {n m : Nat} (a : BitVec n) (b : BitVec m) : (a ++ b).toNat = a.toNat * 2 ^ m + b.toNat := by
  rw [BitVec.toNat_append, ← Nat.shiftLeft_add_eq_or_of_lt b.isLt, Nat.shiftLeft_eq]

theorem formatNNN_toNat (op : Nibble) (nnn : Addr12) : (formatNNN op nnn).toNat = op.toNat * 4096 + nnn.toNat :=
  append_toNat op nnn

theorem formatXNN_toNat (op : Nibble) (x : Reg) (nn : Byte) :
    (formatXNN op x nn).toNat = op.toNat * 4096 + x.val * 256 + nn.toNat := by
  show (op ++ (BitVec.ofFin x : Nibble) ++ nn).toNat = _
  rw [append_toNat, append_toNat]
  show (op.toNat * 2 ^ 4 + x.val) * 2 ^ 8 + nn.toNat = _
  omega

theorem formatXYN_toNat (op : Nibble) (x y : Reg) (f : Nibble) :
    (formatXYN op x y f).toNat = op.toNat * 4096 + x.val * 256 + y.val * 16 + f.toNat := by
  show (op ++ (BitVec.ofFin x : Nibble) ++ (BitVec.ofFin y : Nibble) ++ f).toNat = _
  rw [append_toNat, append_toNat, append_toNat]
  show ((op.toNat * 2 ^ 4 + x.val) * 2 ^ 4 + y.val) * 2 ^ 4 + f.toNat = _
  omega

/-! ### The fields of the formats -/

section
variable (op : Nibble) (x y : Reg) (f : Nibble) (nn : Byte) (nnn : Addr12)

@[simp] theorem fieldOp_formatNNN : fieldOp (formatNNN op nnn) = op := by
  apply BitVec.eq_of_toNat_eq; rw [fieldOp_toNat, formatNNN_toNat]; omega

@[simp] theorem fieldNNN_formatNNN : fieldNNN (formatNNN op nnn) = nnn := by
  apply BitVec.eq_of_toNat_eq; rw [fieldNNN_toNat, formatNNN_toNat]; omega

@[simp] theorem fieldOp_formatXNN : fieldOp (formatXNN op x nn) = op := by
  apply BitVec.eq_of_toNat_eq; rw [fieldOp_toNat, formatXNN_toNat]; omega

@[simp] theorem fieldX_formatXNN : fieldX (formatXNN op x nn) = x := by
  apply Fin.ext; rw [fieldX_val, formatXNN_toNat]; omega

@[simp] theorem fieldNN_formatXNN : fieldNN (formatXNN op x nn) = nn := by
  apply BitVec.eq_of_toNat_eq; rw [fieldNN_toNat, formatXNN_toNat]; omega

@[simp] theorem fieldOp_formatXYN : fieldOp (formatXYN op x y f) = op := by
  apply BitVec.eq_of_toNat_eq; rw [fieldOp_toNat, formatXYN_toNat]; omega

@[simp] theorem fieldX_formatXYN : fieldX (formatXYN op x y f) = x := by
  apply Fin.ext; rw [fieldX_val, formatXYN_toNat]; omega

@[simp] theorem fieldY_formatXYN : fieldY (formatXYN op x y f) = y := by
  apply Fin.ext; rw [fieldY_val, formatXYN_toNat]; omega

@[simp] theorem fieldF_formatXYN : fieldF (formatXYN op x y f) = f := by
  apply BitVec.eq_of_toNat_eq; rw [fieldF_toNat, formatXYN_toNat]; omega

@[simp] theorem fieldN_formatXYN (n : Fin 16) : fieldN (formatXYN op x y (BitVec.ofFin n)) = n := by
  apply Fin.ext
  rw [fieldN_val, formatXYN_toNat]
  show (op.toNat * 4096 + x.val * 256 + y.val * 16 + n.val) % 16 = n.val
  omega

end

/-! ### What a mask keeps: a word that fits a row has the row's selector fields (R61) -/

theorem fieldOp_of_mask {w m p : Word} (h : w &&& m = p) (hm : fieldOp m = 0xF#4) : fieldOp w = fieldOp p := by
  rw [← h]
  simp only [fieldOp, BitVec.extractLsb'_and] at hm ⊢
  rw [hm]
  exact (BitVec.and_allOnes (x := w.extractLsb' 12 4)).symm

theorem fieldF_of_mask {w m p : Word} (h : w &&& m = p) (hm : fieldF m = 0xF#4) : fieldF w = fieldF p := by
  rw [← h]
  simp only [fieldF, BitVec.extractLsb'_and] at hm ⊢
  rw [hm]
  exact (BitVec.and_allOnes (x := w.extractLsb' 0 4)).symm

theorem fieldNN_of_mask {w m p : Word} (h : w &&& m = p) (hm : fieldNN m = 0xFF#8) : fieldNN w = fieldNN p := by
  rw [← h]
  simp only [fieldNN, BitVec.extractLsb'_and] at hm ⊢
  rw [hm]
  exact (BitVec.and_allOnes (x := w.extractLsb' 0 8)).symm

/-! ### A row's mask keeps the row's fixed fields of the format and clears the operands (R53, R61) -/

theorem nibble_and_ones (a : Nibble) : a &&& 15#4 = a := BitVec.and_allOnes (x := a)

theorem byte_and_ones (a : Byte) : a &&& 255#8 = a := BitVec.and_allOnes (x := a)

theorem formatNNN_mask (op : Nibble) (nnn : Addr12) : formatNNN op nnn &&& 0xF000#16 = formatNNN op 0 := by
  show (op ++ nnn) &&& (0xF#4 ++ 0#12) = op ++ 0#12
  rw [BitVec.and_append]
  simp [nibble_and_ones]

theorem formatXNN_mask (op : Nibble) (x : Reg) (nn : Byte) : formatXNN op x nn &&& 0xF000#16 = formatXNN op 0 0 := by
  show ((op ++ (BitVec.ofFin x : Nibble)) ++ nn) &&& ((0xF#4 ++ 0#4) ++ 0#8) = (op ++ 0#4) ++ 0#8
  rw [BitVec.and_append, BitVec.and_append]
  simp [nibble_and_ones]

theorem formatXFF_mask (op : Nibble) (x : Reg) (nn : Byte) : formatXNN op x nn &&& 0xF0FF#16 = formatXNN op 0 nn := by
  show ((op ++ (BitVec.ofFin x : Nibble)) ++ nn) &&& ((0xF#4 ++ 0#4) ++ 0xFF#8) = (op ++ 0#4) ++ nn
  rw [BitVec.and_append, BitVec.and_append]
  simp [nibble_and_ones, byte_and_ones]

theorem formatXYF_mask (op f : Nibble) (x y : Reg) : formatXYN op x y f &&& 0xF00F#16 = formatXYN op 0 0 f := by
  show (((op ++ (BitVec.ofFin x : Nibble)) ++ (BitVec.ofFin y : Nibble)) ++ f) &&& (((0xF#4 ++ 0#4) ++ 0#4) ++ 0xF#4) =
    ((op ++ 0#4) ++ 0#4) ++ f
  rw [BitVec.and_append, BitVec.and_append, BitVec.and_append]
  simp [nibble_and_ones]

theorem formatXYN_mask (op f : Nibble) (x y : Reg) : formatXYN op x y f &&& 0xF000#16 = formatXYN op 0 0 0 := by
  show (((op ++ (BitVec.ofFin x : Nibble)) ++ (BitVec.ofFin y : Nibble)) ++ f) &&& (((0xF#4 ++ 0#4) ++ 0#4) ++ 0#4) =
    ((op ++ 0#4) ++ 0#4) ++ 0#4
  rw [BitVec.and_append, BitVec.and_append, BitVec.and_append]
  simp [nibble_and_ones]

end Sys2Proof
end

