-- ==== Sys2Proof/Laws/Frames.lean ====
section
/-! SUPPORT. The frames of the operations whose result is not a single record update: what each leaves unchanged, and the fields
it changes, case by case. -/

namespace Sys2Proof.Machine

variable (s : State)

/-! ### writeBack: only the register file (R80) -/

@[simp] theorem State.writeBack_i (x : Reg) (o : AluOut) : (s.writeBack x o).i = s.i := by rw [State.writeBack_frame]
@[simp] theorem State.writeBack_pc (x : Reg) (o : AluOut) : (s.writeBack x o).pc = s.pc := by rw [State.writeBack_frame]
@[simp] theorem State.writeBack_stack (x : Reg) (o : AluOut) : (s.writeBack x o).stack = s.stack := by rw [State.writeBack_frame]
@[simp] theorem State.writeBack_depth (x : Reg) (o : AluOut) : (s.writeBack x o).depth = s.depth := by rw [State.writeBack_frame]
@[simp] theorem State.writeBack_dt (x : Reg) (o : AluOut) : (s.writeBack x o).dt = s.dt := by rw [State.writeBack_frame]
@[simp] theorem State.writeBack_st (x : Reg) (o : AluOut) : (s.writeBack x o).st = s.st := by rw [State.writeBack_frame]
@[simp] theorem State.writeBack_mem (x : Reg) (o : AluOut) : (s.writeBack x o).mem = s.mem := by rw [State.writeBack_frame]
@[simp] theorem State.writeBack_fb (x : Reg) (o : AluOut) : (s.writeBack x o).fb = s.fb := by rw [State.writeBack_frame]
@[simp] theorem State.writeBack_status (x : Reg) (o : AluOut) : (s.writeBack x o).status = s.status := by rw [State.writeBack_frame]
@[simp] theorem State.writeBack_waitReg (x : Reg) (o : AluOut) : (s.writeBack x o).waitReg = s.waitReg := by rw [State.writeBack_frame]
@[simp] theorem State.writeBack_keyPrev (x : Reg) (o : AluOut) : (s.writeBack x o).keyPrev = s.keyPrev := by rw [State.writeBack_frame]
@[simp] theorem State.writeBack_faultCause (x : Reg) (o : AluOut) : (s.writeBack x o).faultCause = s.faultCause := by rw [State.writeBack_frame]
@[simp] theorem State.writeBack_faultAddr (x : Reg) (o : AluOut) : (s.writeBack x o).faultAddr = s.faultAddr := by rw [State.writeBack_frame]
@[simp] theorem State.writeBack_events (x : Reg) (o : AluOut) : (s.writeBack x o).events = s.events := by rw [State.writeBack_frame]
@[simp] theorem State.writeBack_beeps (x : Reg) (o : AluOut) : (s.writeBack x o).beeps = s.beeps := by rw [State.writeBack_frame]
@[simp] theorem State.writeBack_keys (x : Reg) (o : AluOut) : (s.writeBack x o).keys = s.keys := by rw [State.writeBack_frame]
@[simp] theorem State.writeBack_rnd (x : Reg) (o : AluOut) : (s.writeBack x o).rnd = s.rnd := by rw [State.writeBack_frame]
@[simp] theorem State.writeBack_samples (x : Reg) (o : AluOut) : (s.writeBack x o).samples = s.samples := by rw [State.writeBack_frame]
@[simp] theorem State.writeBack_pending (x : Reg) (o : AluOut) : (s.writeBack x o).pending = s.pending := by rw [State.writeBack_frame]
@[simp] theorem State.writeBack_stepped (x : Reg) (o : AluOut) : (s.writeBack x o).stepped = s.stepped := by rw [State.writeBack_frame]
@[simp] theorem State.writeBack_params (x : Reg) (o : AluOut) : (s.writeBack x o).params = s.params := by rw [State.writeBack_frame]

/-! ### loadRegs: only the register file (R98) -/

@[simp] theorem State.loadRegs_i (x : Reg) : (s.loadRegs x).i = s.i := by rw [State.loadRegs_frame]
@[simp] theorem State.loadRegs_pc (x : Reg) : (s.loadRegs x).pc = s.pc := by rw [State.loadRegs_frame]
@[simp] theorem State.loadRegs_stack (x : Reg) : (s.loadRegs x).stack = s.stack := by rw [State.loadRegs_frame]
@[simp] theorem State.loadRegs_depth (x : Reg) : (s.loadRegs x).depth = s.depth := by rw [State.loadRegs_frame]
@[simp] theorem State.loadRegs_dt (x : Reg) : (s.loadRegs x).dt = s.dt := by rw [State.loadRegs_frame]
@[simp] theorem State.loadRegs_st (x : Reg) : (s.loadRegs x).st = s.st := by rw [State.loadRegs_frame]
@[simp] theorem State.loadRegs_mem (x : Reg) : (s.loadRegs x).mem = s.mem := by rw [State.loadRegs_frame]
@[simp] theorem State.loadRegs_fb (x : Reg) : (s.loadRegs x).fb = s.fb := by rw [State.loadRegs_frame]
@[simp] theorem State.loadRegs_status (x : Reg) : (s.loadRegs x).status = s.status := by rw [State.loadRegs_frame]
@[simp] theorem State.loadRegs_waitReg (x : Reg) : (s.loadRegs x).waitReg = s.waitReg := by rw [State.loadRegs_frame]
@[simp] theorem State.loadRegs_keyPrev (x : Reg) : (s.loadRegs x).keyPrev = s.keyPrev := by rw [State.loadRegs_frame]
@[simp] theorem State.loadRegs_faultCause (x : Reg) : (s.loadRegs x).faultCause = s.faultCause := by rw [State.loadRegs_frame]
@[simp] theorem State.loadRegs_faultAddr (x : Reg) : (s.loadRegs x).faultAddr = s.faultAddr := by rw [State.loadRegs_frame]
@[simp] theorem State.loadRegs_events (x : Reg) : (s.loadRegs x).events = s.events := by rw [State.loadRegs_frame]
@[simp] theorem State.loadRegs_beeps (x : Reg) : (s.loadRegs x).beeps = s.beeps := by rw [State.loadRegs_frame]
@[simp] theorem State.loadRegs_keys (x : Reg) : (s.loadRegs x).keys = s.keys := by rw [State.loadRegs_frame]
@[simp] theorem State.loadRegs_rnd (x : Reg) : (s.loadRegs x).rnd = s.rnd := by rw [State.loadRegs_frame]
@[simp] theorem State.loadRegs_samples (x : Reg) : (s.loadRegs x).samples = s.samples := by rw [State.loadRegs_frame]
@[simp] theorem State.loadRegs_pending (x : Reg) : (s.loadRegs x).pending = s.pending := by rw [State.loadRegs_frame]
@[simp] theorem State.loadRegs_stepped (x : Reg) : (s.loadRegs x).stepped = s.stepped := by rw [State.loadRegs_frame]
@[simp] theorem State.loadRegs_params (x : Reg) : (s.loadRegs x).params = s.params := by rw [State.loadRegs_frame]

/-! ### storeRegs: only memory (R97) -/

@[simp] theorem State.storeRegs_v (x : Reg) : (s.storeRegs x).v = s.v := by rw [State.storeRegs_frame]
@[simp] theorem State.storeRegs_i (x : Reg) : (s.storeRegs x).i = s.i := by rw [State.storeRegs_frame]
@[simp] theorem State.storeRegs_pc (x : Reg) : (s.storeRegs x).pc = s.pc := by rw [State.storeRegs_frame]
@[simp] theorem State.storeRegs_stack (x : Reg) : (s.storeRegs x).stack = s.stack := by rw [State.storeRegs_frame]
@[simp] theorem State.storeRegs_depth (x : Reg) : (s.storeRegs x).depth = s.depth := by rw [State.storeRegs_frame]
@[simp] theorem State.storeRegs_dt (x : Reg) : (s.storeRegs x).dt = s.dt := by rw [State.storeRegs_frame]
@[simp] theorem State.storeRegs_st (x : Reg) : (s.storeRegs x).st = s.st := by rw [State.storeRegs_frame]
@[simp] theorem State.storeRegs_fb (x : Reg) : (s.storeRegs x).fb = s.fb := by rw [State.storeRegs_frame]
@[simp] theorem State.storeRegs_status (x : Reg) : (s.storeRegs x).status = s.status := by rw [State.storeRegs_frame]
@[simp] theorem State.storeRegs_waitReg (x : Reg) : (s.storeRegs x).waitReg = s.waitReg := by rw [State.storeRegs_frame]
@[simp] theorem State.storeRegs_keyPrev (x : Reg) : (s.storeRegs x).keyPrev = s.keyPrev := by rw [State.storeRegs_frame]
@[simp] theorem State.storeRegs_faultCause (x : Reg) : (s.storeRegs x).faultCause = s.faultCause := by rw [State.storeRegs_frame]
@[simp] theorem State.storeRegs_faultAddr (x : Reg) : (s.storeRegs x).faultAddr = s.faultAddr := by rw [State.storeRegs_frame]
@[simp] theorem State.storeRegs_events (x : Reg) : (s.storeRegs x).events = s.events := by rw [State.storeRegs_frame]
@[simp] theorem State.storeRegs_beeps (x : Reg) : (s.storeRegs x).beeps = s.beeps := by rw [State.storeRegs_frame]
@[simp] theorem State.storeRegs_keys (x : Reg) : (s.storeRegs x).keys = s.keys := by rw [State.storeRegs_frame]
@[simp] theorem State.storeRegs_rnd (x : Reg) : (s.storeRegs x).rnd = s.rnd := by rw [State.storeRegs_frame]
@[simp] theorem State.storeRegs_samples (x : Reg) : (s.storeRegs x).samples = s.samples := by rw [State.storeRegs_frame]
@[simp] theorem State.storeRegs_pending (x : Reg) : (s.storeRegs x).pending = s.pending := by rw [State.storeRegs_frame]
@[simp] theorem State.storeRegs_stepped (x : Reg) : (s.storeRegs x).stepped = s.stepped := by rw [State.storeRegs_frame]
@[simp] theorem State.storeRegs_params (x : Reg) : (s.storeRegs x).params = s.params := by rw [State.storeRegs_frame]

/-! ### The key skips, the waiting step, tick and cancel -/

/-- The key check, case by case (R106 to R108). -/
theorem State.skipOnKey_of_le {x : Reg} (w : Bool) (h : s.v[x].toNat < 16) :
    s.skipOnKey x w = s.skipIf (s.keySample.getLsbD s.v[x].toNat == w) := by
  rw [State.skipOnKey, State.keyIndex_some s x h]

theorem State.skipOnKey_of_gt {x : Reg} (w : Bool) (h : ¬ s.v[x].toNat < 16) :
    s.skipOnKey x w = s.log .keyIndexRange (s.pc - 2) (BitVec.ofNat 16 s.v[x].toNat) := by
  rw [State.skipOnKey, State.keyIndex_none s x h, ← byteWord_eq]; rfl

theorem State.skipOnKey_frame (x : Reg) (w : Bool) :
    s.skipOnKey x w = { s with pc := (s.skipOnKey x w).pc, events := (s.skipOnKey x w).events } := by
  by_cases h : s.v[x].toNat < 16
  · rw [State.skipOnKey_of_le s w h]; rfl
  · rw [State.skipOnKey_of_gt s w h]; rfl

/-- The waiting step that sees a new key (R110). -/
theorem State.waitStep_some {j : Fin 16} (h : lowestKey (s.keySample &&& ~~~s.keyPrev) = some j) :
    s.waitStep = { s.writeV s.waitReg (BitVec.ofNat 8 j.val) with status := .running, keyPrev := s.keySample } := by
  simp only [State.waitStep, h]

/-- The waiting step that sees none (R110). -/
theorem State.waitStep_none (h : lowestKey (s.keySample &&& ~~~s.keyPrev) = none) :
    s.waitStep = { s with keyPrev := s.keySample } := by
  simp only [State.waitStep, h]

theorem State.waitStep_frame :
    s.waitStep = { s with v := s.waitStep.v, status := s.waitStep.status, keyPrev := s.waitStep.keyPrev } := by
  cases h : lowestKey (s.keySample &&& ~~~s.keyPrev) with
  | none => rw [State.waitStep_none s h]
  | some j => rw [State.waitStep_some s h]; rfl

theorem State.tick_halted (h : s.status = .halted) : s.tick = s := by
  rw [State.tick, h]

theorem State.tick_of_ne (h : s.status ≠ .halted) : s.tick =
    if s.st = 0 then { s with dt := if s.dt = 0 then 0 else s.dt - 1 }
    else { s with dt := if s.dt = 0 then 0 else s.dt - 1 }.setSound (s.st - 1) := by
  unfold State.tick; split
  · contradiction
  · rfl

theorem State.tick_frame : s.tick = { s with dt := s.tick.dt, st := s.tick.st, beeps := s.tick.beeps } := by
  by_cases h : s.status = .halted
  · rw [State.tick_halted s h]
  · rw [State.tick_of_ne s h]; split <;> rfl

theorem State.cancel_halted (h : s.status = .halted) : s.cancel = s := by
  rw [State.cancel, h]

theorem State.cancel_of_ne (h : s.status ≠ .halted) : s.cancel = s.halt .cancelled .cancelled s.pc 0 := by
  unfold State.cancel; split
  · contradiction
  · rfl

theorem State.cancel_frame : s.cancel = { s with
    status := s.cancel.status, faultCause := s.cancel.faultCause, faultAddr := s.cancel.faultAddr,
    events := s.cancel.events } := by
  by_cases h : s.status = .halted
  · rw [State.cancel_halted s h]
  · rw [State.cancel_of_ne s h]; rfl

/-! ### skipOnKey: only PC or the event stream (R106) -/

@[simp] theorem State.skipOnKey_v (x : Reg) (w : Bool) : (s.skipOnKey x w).v = s.v := by rw [State.skipOnKey_frame]
@[simp] theorem State.skipOnKey_i (x : Reg) (w : Bool) : (s.skipOnKey x w).i = s.i := by rw [State.skipOnKey_frame]
@[simp] theorem State.skipOnKey_stack (x : Reg) (w : Bool) : (s.skipOnKey x w).stack = s.stack := by rw [State.skipOnKey_frame]
@[simp] theorem State.skipOnKey_depth (x : Reg) (w : Bool) : (s.skipOnKey x w).depth = s.depth := by rw [State.skipOnKey_frame]
@[simp] theorem State.skipOnKey_dt (x : Reg) (w : Bool) : (s.skipOnKey x w).dt = s.dt := by rw [State.skipOnKey_frame]
@[simp] theorem State.skipOnKey_st (x : Reg) (w : Bool) : (s.skipOnKey x w).st = s.st := by rw [State.skipOnKey_frame]
@[simp] theorem State.skipOnKey_mem (x : Reg) (w : Bool) : (s.skipOnKey x w).mem = s.mem := by rw [State.skipOnKey_frame]
@[simp] theorem State.skipOnKey_fb (x : Reg) (w : Bool) : (s.skipOnKey x w).fb = s.fb := by rw [State.skipOnKey_frame]
@[simp] theorem State.skipOnKey_status (x : Reg) (w : Bool) : (s.skipOnKey x w).status = s.status := by rw [State.skipOnKey_frame]
@[simp] theorem State.skipOnKey_waitReg (x : Reg) (w : Bool) : (s.skipOnKey x w).waitReg = s.waitReg := by rw [State.skipOnKey_frame]
@[simp] theorem State.skipOnKey_keyPrev (x : Reg) (w : Bool) : (s.skipOnKey x w).keyPrev = s.keyPrev := by rw [State.skipOnKey_frame]
@[simp] theorem State.skipOnKey_faultCause (x : Reg) (w : Bool) : (s.skipOnKey x w).faultCause = s.faultCause := by rw [State.skipOnKey_frame]
@[simp] theorem State.skipOnKey_faultAddr (x : Reg) (w : Bool) : (s.skipOnKey x w).faultAddr = s.faultAddr := by rw [State.skipOnKey_frame]
@[simp] theorem State.skipOnKey_beeps (x : Reg) (w : Bool) : (s.skipOnKey x w).beeps = s.beeps := by rw [State.skipOnKey_frame]
@[simp] theorem State.skipOnKey_keys (x : Reg) (w : Bool) : (s.skipOnKey x w).keys = s.keys := by rw [State.skipOnKey_frame]
@[simp] theorem State.skipOnKey_rnd (x : Reg) (w : Bool) : (s.skipOnKey x w).rnd = s.rnd := by rw [State.skipOnKey_frame]
@[simp] theorem State.skipOnKey_samples (x : Reg) (w : Bool) : (s.skipOnKey x w).samples = s.samples := by rw [State.skipOnKey_frame]
@[simp] theorem State.skipOnKey_pending (x : Reg) (w : Bool) : (s.skipOnKey x w).pending = s.pending := by rw [State.skipOnKey_frame]
@[simp] theorem State.skipOnKey_stepped (x : Reg) (w : Bool) : (s.skipOnKey x w).stepped = s.stepped := by rw [State.skipOnKey_frame]
@[simp] theorem State.skipOnKey_params (x : Reg) (w : Bool) : (s.skipOnKey x w).params = s.params := by rw [State.skipOnKey_frame]

/-! ### waitStep: only V, STATUS and KEY_PREV (R110) -/

@[simp] theorem State.waitStep_i : s.waitStep.i = s.i := by rw [State.waitStep_frame]
@[simp] theorem State.waitStep_pc : s.waitStep.pc = s.pc := by rw [State.waitStep_frame]
@[simp] theorem State.waitStep_stack : s.waitStep.stack = s.stack := by rw [State.waitStep_frame]
@[simp] theorem State.waitStep_depth : s.waitStep.depth = s.depth := by rw [State.waitStep_frame]
@[simp] theorem State.waitStep_dt : s.waitStep.dt = s.dt := by rw [State.waitStep_frame]
@[simp] theorem State.waitStep_st : s.waitStep.st = s.st := by rw [State.waitStep_frame]
@[simp] theorem State.waitStep_mem : s.waitStep.mem = s.mem := by rw [State.waitStep_frame]
@[simp] theorem State.waitStep_fb : s.waitStep.fb = s.fb := by rw [State.waitStep_frame]
@[simp] theorem State.waitStep_waitReg : s.waitStep.waitReg = s.waitReg := by rw [State.waitStep_frame]
@[simp] theorem State.waitStep_faultCause : s.waitStep.faultCause = s.faultCause := by rw [State.waitStep_frame]
@[simp] theorem State.waitStep_faultAddr : s.waitStep.faultAddr = s.faultAddr := by rw [State.waitStep_frame]
@[simp] theorem State.waitStep_events : s.waitStep.events = s.events := by rw [State.waitStep_frame]
@[simp] theorem State.waitStep_beeps : s.waitStep.beeps = s.beeps := by rw [State.waitStep_frame]
@[simp] theorem State.waitStep_keys : s.waitStep.keys = s.keys := by rw [State.waitStep_frame]
@[simp] theorem State.waitStep_rnd : s.waitStep.rnd = s.rnd := by rw [State.waitStep_frame]
@[simp] theorem State.waitStep_samples : s.waitStep.samples = s.samples := by rw [State.waitStep_frame]
@[simp] theorem State.waitStep_pending : s.waitStep.pending = s.pending := by rw [State.waitStep_frame]
@[simp] theorem State.waitStep_stepped : s.waitStep.stepped = s.stepped := by rw [State.waitStep_frame]
@[simp] theorem State.waitStep_params : s.waitStep.params = s.params := by rw [State.waitStep_frame]

/-! ### tick: only the timers and the beep (R126) -/

@[simp] theorem State.tick_v : s.tick.v = s.v := by rw [State.tick_frame]
@[simp] theorem State.tick_i : s.tick.i = s.i := by rw [State.tick_frame]
@[simp] theorem State.tick_pc : s.tick.pc = s.pc := by rw [State.tick_frame]
@[simp] theorem State.tick_stack : s.tick.stack = s.stack := by rw [State.tick_frame]
@[simp] theorem State.tick_depth : s.tick.depth = s.depth := by rw [State.tick_frame]
@[simp] theorem State.tick_mem : s.tick.mem = s.mem := by rw [State.tick_frame]
@[simp] theorem State.tick_fb : s.tick.fb = s.fb := by rw [State.tick_frame]
@[simp] theorem State.tick_status : s.tick.status = s.status := by rw [State.tick_frame]
@[simp] theorem State.tick_waitReg : s.tick.waitReg = s.waitReg := by rw [State.tick_frame]
@[simp] theorem State.tick_keyPrev : s.tick.keyPrev = s.keyPrev := by rw [State.tick_frame]
@[simp] theorem State.tick_faultCause : s.tick.faultCause = s.faultCause := by rw [State.tick_frame]
@[simp] theorem State.tick_faultAddr : s.tick.faultAddr = s.faultAddr := by rw [State.tick_frame]
@[simp] theorem State.tick_events : s.tick.events = s.events := by rw [State.tick_frame]
@[simp] theorem State.tick_keys : s.tick.keys = s.keys := by rw [State.tick_frame]
@[simp] theorem State.tick_rnd : s.tick.rnd = s.rnd := by rw [State.tick_frame]
@[simp] theorem State.tick_samples : s.tick.samples = s.samples := by rw [State.tick_frame]
@[simp] theorem State.tick_pending : s.tick.pending = s.pending := by rw [State.tick_frame]
@[simp] theorem State.tick_stepped : s.tick.stepped = s.stepped := by rw [State.tick_frame]
@[simp] theorem State.tick_params : s.tick.params = s.params := by rw [State.tick_frame]

/-! ### cancel: only STATUS, the fault record and the stream (R118) -/

@[simp] theorem State.cancel_v : s.cancel.v = s.v := by rw [State.cancel_frame]
@[simp] theorem State.cancel_i : s.cancel.i = s.i := by rw [State.cancel_frame]
@[simp] theorem State.cancel_pc : s.cancel.pc = s.pc := by rw [State.cancel_frame]
@[simp] theorem State.cancel_stack : s.cancel.stack = s.stack := by rw [State.cancel_frame]
@[simp] theorem State.cancel_depth : s.cancel.depth = s.depth := by rw [State.cancel_frame]
@[simp] theorem State.cancel_dt : s.cancel.dt = s.dt := by rw [State.cancel_frame]
@[simp] theorem State.cancel_st : s.cancel.st = s.st := by rw [State.cancel_frame]
@[simp] theorem State.cancel_mem : s.cancel.mem = s.mem := by rw [State.cancel_frame]
@[simp] theorem State.cancel_fb : s.cancel.fb = s.fb := by rw [State.cancel_frame]
@[simp] theorem State.cancel_waitReg : s.cancel.waitReg = s.waitReg := by rw [State.cancel_frame]
@[simp] theorem State.cancel_keyPrev : s.cancel.keyPrev = s.keyPrev := by rw [State.cancel_frame]
@[simp] theorem State.cancel_beeps : s.cancel.beeps = s.beeps := by rw [State.cancel_frame]
@[simp] theorem State.cancel_keys : s.cancel.keys = s.keys := by rw [State.cancel_frame]
@[simp] theorem State.cancel_rnd : s.cancel.rnd = s.rnd := by rw [State.cancel_frame]
@[simp] theorem State.cancel_samples : s.cancel.samples = s.samples := by rw [State.cancel_frame]
@[simp] theorem State.cancel_pending : s.cancel.pending = s.pending := by rw [State.cancel_frame]
@[simp] theorem State.cancel_stepped : s.cancel.stepped = s.stepped := by rw [State.cancel_frame]
@[simp] theorem State.cancel_params : s.cancel.params = s.params := by rw [State.cancel_frame]

end Sys2Proof.Machine
end

