-- ==== Sys2Proof/Laws/Exec.lean ====
section
/-! SUPPORT. What each instruction's arm of `exec` answers, over the shared operations: by `rfl`, so that no later proof unfolds a
meaning. -/

namespace Sys2Proof.Machine

variable (s : State)

@[simp] theorem exec_op1NNN (nnn : Addr12) : exec (.op1NNN nnn) s =
    .next (s.jump (zext16 nnn)) := rfl

@[simp] theorem exec_op3XNN (x : Reg) (nn : Byte) : exec (.op3XNN x nn) s =
    .next (s.skipIf (s.readV x == nn)) := rfl

@[simp] theorem exec_op4XNN (x : Reg) (nn : Byte) : exec (.op4XNN x nn) s =
    .next (s.skipIf (s.readV x != nn)) := rfl

@[simp] theorem exec_op5XY0 (x y : Reg) : exec (.op5XY0 x y) s =
    .next (s.skipIf (s.readV x == s.readV y)) := rfl

@[simp] theorem exec_op9XY0 (x y : Reg) : exec (.op9XY0 x y) s =
    .next (s.skipIf (s.readV x != s.readV y)) := rfl

@[simp] theorem exec_opBNNN (nnn : Addr12) : exec (.opBNNN nnn) s =
    .next (s.jump (zext16 nnn + byteWord (s.readV 0))) := rfl

@[simp] theorem exec_op6XNN (x : Reg) (nn : Byte) : exec (.op6XNN x nn) s =
    .next (s.writeV x nn) := rfl

@[simp] theorem exec_op7XNN (x : Reg) (nn : Byte) : exec (.op7XNN x nn) s =
    .next (s.writeV x (addCarry (s.readV x) nn).result) := rfl

@[simp] theorem exec_op8XY0 (x y : Reg) : exec (.op8XY0 x y) s =
    .next (s.writeV x (s.readV y)) := rfl

@[simp] theorem exec_op8XY1 (x y : Reg) : exec (.op8XY1 x y) s =
    .next (s.writeV x (s.readV x ||| s.readV y)) := rfl

@[simp] theorem exec_op8XY2 (x y : Reg) : exec (.op8XY2 x y) s =
    .next (s.writeV x (s.readV x &&& s.readV y)) := rfl

@[simp] theorem exec_op8XY3 (x y : Reg) : exec (.op8XY3 x y) s =
    .next (s.writeV x (s.readV x ^^^ s.readV y)) := rfl

@[simp] theorem exec_op8XY4 (x y : Reg) : exec (.op8XY4 x y) s =
    .next (s.writeBack x (addCarry (s.readV x) (s.readV y))) := rfl

@[simp] theorem exec_op8XY5 (x y : Reg) : exec (.op8XY5 x y) s =
    .next (s.writeBack x (subNoBorrow (s.readV x) (s.readV y))) := rfl

@[simp] theorem exec_op8XY6 (x y : Reg) : exec (.op8XY6 x y) s =
    .next (s.writeBack x (shiftRight (s.shiftSource x y))) := rfl

@[simp] theorem exec_op8XY7 (x y : Reg) : exec (.op8XY7 x y) s =
    .next (s.writeBack x (subNoBorrow (s.readV y) (s.readV x))) := rfl

@[simp] theorem exec_op8XYE (x y : Reg) : exec (.op8XYE x y) s =
    .next (s.writeBack x (shiftLeft (s.shiftSource x y))) := rfl

@[simp] theorem exec_opCXNN (x : Reg) (nn : Byte) : exec (.opCXNN x nn) s =
    .next (s.writeV x (s.rndByte &&& nn)) := rfl

@[simp] theorem exec_opANNN (nnn : Addr12) : exec (.opANNN nnn) s =
    .next { s with i := zext16 nnn } := rfl

@[simp] theorem exec_opFX1E (x : Reg) : exec (.opFX1E x) s =
    .next { s with i := BitVec.ofNat 16 ((s.i.toNat + (s.readV x).toNat) % 4096) } := rfl

@[simp] theorem exec_opFX29 (x : Reg) : exec (.opFX29 x) s =
    .next { s with i := s.fontAddr x } := rfl

@[simp] theorem exec_opFX33 (x : Reg) : exec (.opFX33 x) s =
    .next (((s.writeByte (s.indexAddr 0) (hundreds (s.readV x))).writeByte (s.indexAddr 1)
      (tens (s.readV x))).writeByte (s.indexAddr 2) (ones (s.readV x))) := rfl

@[simp] theorem exec_opFX55 (x : Reg) : exec (.opFX55 x) s =
    .next (s.storeRegs x) := rfl

@[simp] theorem exec_opFX65 (x : Reg) : exec (.opFX65 x) s =
    .next (s.loadRegs x) := rfl

@[simp] theorem exec_op00E0 : exec .op00E0 s =
    .next { s with fb := Framebuffer.blank } := rfl

@[simp] theorem exec_opDXYN (x y : Reg) (n : Fin 16) : exec (.opDXYN x y n) s =
    .next ({ s with fb := (s.sprite x y n).fb }.writeV VF (flagByte (s.sprite x y n).collided)) := rfl

@[simp] theorem exec_opEX9E (x : Reg) : exec (.opEX9E x) s =
    .next (s.skipOnKey x true) := rfl

@[simp] theorem exec_opEXA1 (x : Reg) : exec (.opEXA1 x) s =
    .next (s.skipOnKey x false) := rfl

@[simp] theorem exec_opFX07 (x : Reg) : exec (.opFX07 x) s =
    .next (s.writeV x s.dt) := rfl

@[simp] theorem exec_opFX0A (x : Reg) : exec (.opFX0A x) s =
    .next { s with waitReg := x, keyPrev := s.keySample, status := .waiting } := rfl

@[simp] theorem exec_opFX15 (x : Reg) : exec (.opFX15 x) s =
    .next { s with dt := s.readV x } := rfl

@[simp] theorem exec_opFX18 (x : Reg) : exec (.opFX18 x) s =
    .next (s.setSound (s.readV x)) := rfl

/-- A call with room on the stack (R71). -/
theorem exec_op2NNN_pushes (nnn : Addr12) (h : s.depth.val < 16) : exec (.op2NNN nnn) s =
    .next { s with
      stack := s.stack.set s.depth.val s.pc, depth := ⟨s.depth.val + 1, by omega⟩, pc := zext16 nnn } := by
  show exec2NNN nnn s = _
  rw [exec2NNN, State.push_some s s.pc h]; rfl

/-- A call with 16 entries in use (R71, R116). -/
theorem exec_op2NNN_overflows (nnn : Addr12) (h : ¬ s.depth.val < 16) : exec (.op2NNN nnn) s =
    .next (s.raise .stackOverflow (encode (.op2NNN nnn))) := by
  show exec2NNN nnn s = _
  rw [exec2NNN, State.push_none s s.pc h]

/-- A return with an entry on the stack (R69). -/
theorem exec_op00EE_pops (h : 0 < s.depth.val) : exec .op00EE s =
    .next { s with pc := s.stack[s.depth.val - 1]'(by omega), depth := ⟨s.depth.val - 1, by omega⟩ } := by
  show exec00EE s = _
  rw [exec00EE, State.pop_some s h]; rfl

/-- A return on the empty stack (R69, R116). -/
theorem exec_op00EE_underflows (h : ¬ 0 < s.depth.val) : exec .op00EE s =
    .next (s.raise .stackUnderflow (encode .op00EE)) := by
  show exec00EE s = _
  rw [exec00EE, State.pop_none s h]

end Sys2Proof.Machine
end

