-- ==== Sys2Proof/Laws/Load.lean ====
section
/-! SUPPORT. What loading bytes does to memory (70_reset_and_hazards.md R135, R136). -/

namespace Sys2Proof.Machine

/-- A `load` before the first step writes one masked byte. -/
theorem State.load_next (s : State) (a : Word) (b : Byte) (h : s.stepped = false) :
    s.load a b = .next (s.writeByte a b) := by
  rw [State.load, h]; rfl

/-- A `load` at any other time is refused. -/
theorem State.load_refused (s : State) (a : Word) (b : Byte) (h : s.stepped = true) :
    s.load a b = .refused .loadAfterFirstStep := by
  rw [State.load, h]; rfl

/-- Consecutive loads before the first step: byte j stands at address + j, masked, every other byte is as before, and nothing
but memory changes. -/
theorem State.loadBytes_next (l : List Byte) (hl : l.length ≤ 4096) : ∀ (a : Word) (s : State), s.stepped = false →
    ∃ t, State.loadBytes a l s = .next t ∧ t = { s with mem := t.mem } ∧
      (∀ (j : Nat) (h : j < l.length), t.mem.read ((a.toNat + j) % 4096) = l[j]) ∧
      (∀ c, (∀ j, j < l.length → c ≠ (a.toNat + j) % 4096) → t.mem.read c = s.mem.read c) := by
  induction l with
  | nil => intro a s _; exact ⟨s, rfl, rfl, fun j h => absurd h (by simp), fun _ _ => rfl⟩
  | cons b rest ih =>
    intro a s hs
    rw [List.length_cons] at hl
    obtain ⟨t, h1, h2, h3, h4⟩ := ih (by omega) (a + 1) (s.writeByte a b) hs
    have hstep : ∀ j, ((a + 1).toNat + j) % 4096 = (a.toNat + (j + 1)) % 4096 := by
      intro j; change ((a.toNat + 1) % 65536 + j) % 4096 = _; omega
    refine ⟨t, ?_, h2, ?_, ?_⟩
    · rw [State.loadBytes, State.load_next s a b hs]; exact h1
    · intro j hj
      cases j with
      | zero =>
        rw [h4]
        · rw [State.writeByte_mem, maskAddr_eq, Nat.add_zero, Memory.read_write_same]; rfl
        · intro k hk; rw [hstep]; omega
      | succ j => rw [← hstep, h3 j (by simpa using hj)]; rfl
    · intro c hc
      rw [h4 c (fun j hj => by rw [hstep]; exact hc (j + 1) (by simp; omega)), State.writeByte_mem,
        Memory.read_write_ne]
      rw [maskAddr_eq]; simpa using hc 0 (by simp)

/-- Loading keeps memory canonical. -/
theorem State.loadBytes_wf (l : List Byte) : ∀ (a : Word) (s t : State), State.loadBytes a l s = .next t →
    s.mem.wf = true → t.mem.wf = true := by
  induction l with
  | nil => intro a s t h hs; cases h; exact hs
  | cons b rest ih =>
    intro a s t h hs
    cases hst : s.stepped with
    | true => rw [State.loadBytes, State.load_refused s a b hst] at h; cases h
    | false =>
      rw [State.loadBytes, State.load_next s a b hst] at h
      exact ih _ _ _ h (State.writeByte_wf a b hs)

end Sys2Proof.Machine
end

