-- ==== Sys2Proof/Laws/PerInstr.lean ====
section
/-! SUPPORT. For each instruction: its encoding is a word of its own row of the opcode table, whatever its operands
(30_encoding.md R53, R61, R62). -/

namespace Sys2Proof.Laws.EncodeFits

/-- The instruction's row is in the opcode table, and its word fits that row. -/
def Statement (i : Instr) : Prop := i.row ∈ opcodeTable ∧ encode i &&& i.row.mask = i.row.pattern

theorem row_mem (i : Instr) : i.row ∈ opcodeTable := by
  cases i <;> simp [opcodeTable, opcodeTableLow, opcodeTable8, opcodeTableHigh, opcodeTableF, Instr.row]

theorem op00E0 : Statement .op00E0 := ⟨row_mem _, rfl⟩

theorem op00EE : Statement .op00EE := ⟨row_mem _, rfl⟩

theorem op1NNN (nnn : Addr12) : Statement (.op1NNN nnn) :=
  ⟨row_mem _, formatNNN_mask 0x1 nnn⟩

theorem op2NNN (nnn : Addr12) : Statement (.op2NNN nnn) :=
  ⟨row_mem _, formatNNN_mask 0x2 nnn⟩

theorem op3XNN (x : Reg) (nn : Byte) : Statement (.op3XNN x nn) :=
  ⟨row_mem _, formatXNN_mask 0x3 x nn⟩

theorem op4XNN (x : Reg) (nn : Byte) : Statement (.op4XNN x nn) :=
  ⟨row_mem _, formatXNN_mask 0x4 x nn⟩

theorem op5XY0 (x y : Reg) : Statement (.op5XY0 x y) :=
  ⟨row_mem _, formatXYF_mask 0x5 0x0 x y⟩

theorem op6XNN (x : Reg) (nn : Byte) : Statement (.op6XNN x nn) :=
  ⟨row_mem _, formatXNN_mask 0x6 x nn⟩

theorem op7XNN (x : Reg) (nn : Byte) : Statement (.op7XNN x nn) :=
  ⟨row_mem _, formatXNN_mask 0x7 x nn⟩

theorem op8XY0 (x y : Reg) : Statement (.op8XY0 x y) :=
  ⟨row_mem _, formatXYF_mask 0x8 0x0 x y⟩

theorem op8XY1 (x y : Reg) : Statement (.op8XY1 x y) :=
  ⟨row_mem _, formatXYF_mask 0x8 0x1 x y⟩

theorem op8XY2 (x y : Reg) : Statement (.op8XY2 x y) :=
  ⟨row_mem _, formatXYF_mask 0x8 0x2 x y⟩

theorem op8XY3 (x y : Reg) : Statement (.op8XY3 x y) :=
  ⟨row_mem _, formatXYF_mask 0x8 0x3 x y⟩

theorem op8XY4 (x y : Reg) : Statement (.op8XY4 x y) :=
  ⟨row_mem _, formatXYF_mask 0x8 0x4 x y⟩

theorem op8XY5 (x y : Reg) : Statement (.op8XY5 x y) :=
  ⟨row_mem _, formatXYF_mask 0x8 0x5 x y⟩

theorem op8XY6 (x y : Reg) : Statement (.op8XY6 x y) :=
  ⟨row_mem _, formatXYF_mask 0x8 0x6 x y⟩

theorem op8XY7 (x y : Reg) : Statement (.op8XY7 x y) :=
  ⟨row_mem _, formatXYF_mask 0x8 0x7 x y⟩

theorem op8XYE (x y : Reg) : Statement (.op8XYE x y) :=
  ⟨row_mem _, formatXYF_mask 0x8 0xE x y⟩

theorem op9XY0 (x y : Reg) : Statement (.op9XY0 x y) :=
  ⟨row_mem _, formatXYF_mask 0x9 0x0 x y⟩

theorem opANNN (nnn : Addr12) : Statement (.opANNN nnn) :=
  ⟨row_mem _, formatNNN_mask 0xA nnn⟩

theorem opBNNN (nnn : Addr12) : Statement (.opBNNN nnn) :=
  ⟨row_mem _, formatNNN_mask 0xB nnn⟩

theorem opCXNN (x : Reg) (nn : Byte) : Statement (.opCXNN x nn) :=
  ⟨row_mem _, formatXNN_mask 0xC x nn⟩

theorem opDXYN (x y : Reg) (n : Fin 16) : Statement (.opDXYN x y n) :=
  ⟨row_mem _, formatXYN_mask 0xD (BitVec.ofFin n) x y⟩

theorem opEX9E (x : Reg) : Statement (.opEX9E x) :=
  ⟨row_mem _, formatXFF_mask 0xE x 0x9E⟩

theorem opEXA1 (x : Reg) : Statement (.opEXA1 x) :=
  ⟨row_mem _, formatXFF_mask 0xE x 0xA1⟩

theorem opFX07 (x : Reg) : Statement (.opFX07 x) :=
  ⟨row_mem _, formatXFF_mask 0xF x 0x07⟩

theorem opFX0A (x : Reg) : Statement (.opFX0A x) :=
  ⟨row_mem _, formatXFF_mask 0xF x 0x0A⟩

theorem opFX15 (x : Reg) : Statement (.opFX15 x) :=
  ⟨row_mem _, formatXFF_mask 0xF x 0x15⟩

theorem opFX18 (x : Reg) : Statement (.opFX18 x) :=
  ⟨row_mem _, formatXFF_mask 0xF x 0x18⟩

theorem opFX1E (x : Reg) : Statement (.opFX1E x) :=
  ⟨row_mem _, formatXFF_mask 0xF x 0x1E⟩

theorem opFX29 (x : Reg) : Statement (.opFX29 x) :=
  ⟨row_mem _, formatXFF_mask 0xF x 0x29⟩

theorem opFX33 (x : Reg) : Statement (.opFX33 x) :=
  ⟨row_mem _, formatXFF_mask 0xF x 0x33⟩

theorem opFX55 (x : Reg) : Statement (.opFX55 x) :=
  ⟨row_mem _, formatXFF_mask 0xF x 0x55⟩

theorem opFX65 (x : Reg) : Statement (.opFX65 x) :=
  ⟨row_mem _, formatXFF_mask 0xF x 0x65⟩

end Sys2Proof.Laws.EncodeFits
end

