-- ==== Sys2Proof/Laws/Step.lean ====
section
/-! SUPPORT. What one step can do, once: which host event it applies, what a `step` event is in each status, and the fetch of a
word that was just stored (10_state.md R33, 30_encoding.md R58). -/

namespace Sys2Proof.Machine

variable (s : State)

/-- A step is the oldest pending host event, or a `step` where none is pending. -/
theorem step_eq : step s = hostEvent (s.pending.head?.getD .step) { s with pending := s.pending.tail } := by
  obtain ⟨_, _, _, _, _, _, _, _, _, _, _, _, _, _, _, _, _, _, _, pending, _, _⟩ := s
  cases pending <;> rfl

/-- Where the next event is a `step`, with nothing pending or first in the queue. -/
theorem step_eq_stepEvent (h : s.pending.head?.getD .step = .step) :
    step s = stepEvent { s with pending := s.pending.tail } := by
  rw [step_eq, h]; rfl

theorem stepEvent_halted (h : s.status = .halted) : stepEvent s = .next s.markStepped := by
  rw [stepEvent, h]

theorem stepEvent_waiting (h : s.status = .waiting) : stepEvent s = .next s.sampleInputs.waitStep := by
  rw [stepEvent, h]

theorem stepEvent_running (h : s.status = .running) : stepEvent s = runStep s := by
  rw [stepEvent, h]

/-- A RUNNING step whose word decodes runs the instruction with PC past it (R58, R60). -/
theorem runStep_decoded {i : Instr} (h : decodeWord s.fetchWord = some i) :
    runStep s = exec i { s with pc := s.pc + 2, stepped := true, samples := s.samples + 1 } := by
  rw [runStep, execWord, h]; rfl

/-- A RUNNING step whose word does not decode only logs (R63). -/
theorem runStep_invalid (h : decodeWord s.fetchWord = none) :
    runStep s = .next { s with
      pc := s.pc + 2, stepped := true, samples := s.samples + 1,
      events := s.events ++ [⟨.invalidOpcode, s.pc, s.fetchWord⟩] } := by
  have hpc : s.pc + 2 - 2 = s.pc := by simp
  rw [runStep, execWord, h]
  show Host.Outcome.next (State.log _ _ (s.pc + 2 - 2) _) = _
  rw [hpc]; rfl

/-- What `load` leaves alone: everything but memory. -/
theorem State.load_cases {a : Word} {b : Byte} {t : State} (h : s.load a b = .next t) :
    s.stepped = false ∧ t = s.writeByte a b := by
  rw [State.load] at h
  by_cases hs : s.stepped = true
  · rw [if_pos hs] at h; cases h
  · rw [if_neg hs] at h; cases h; exact ⟨by simpa using hs, rfl⟩

/-! ### Call and return, seen from outside (R69, R71, R116) -/

/-- A call writes only the stack, SP, PC and, on overflow, the fault record, STATUS and the event stream. -/
theorem exec_op2NNN_frame (nnn : Addr12) {t : State} (h : exec (.op2NNN nnn) s = .next t) : t = { s with
    stack := t.stack, depth := t.depth, pc := t.pc, status := t.status, faultCause := t.faultCause,
    faultAddr := t.faultAddr, events := t.events } := by
  by_cases hd : s.depth.val < 16
  · rw [exec_op2NNN_pushes s nnn hd] at h; cases h; rfl
  · rw [exec_op2NNN_overflows s nnn hd] at h; cases h; rfl

/-- A return writes only SP, PC and, on underflow, the fault record, STATUS and the event stream. -/
theorem exec_op00EE_frame {t : State} (h : exec .op00EE s = .next t) : t = { s with
    depth := t.depth, pc := t.pc, status := t.status, faultCause := t.faultCause, faultAddr := t.faultAddr,
    events := t.events } := by
  by_cases hd : 0 < s.depth.val
  · rw [exec_op00EE_pops s hd] at h; cases h; rfl
  · rw [exec_op00EE_underflows s hd] at h; cases h; rfl

/-! ### A stored word is the word fetched (20_memory.md R38, R39, R49) -/

theorem wordOfBytes_highByte_lowByte (w : Word) : wordOfBytes (highByte w) (lowByte w) = w := by
  apply BitVec.eq_of_toNat_eq
  rw [wordOfBytes, append_toNat]
  simp only [highByte, lowByte, BitVec.extractLsb'_toNat, Nat.shiftRight_eq_div_pow]
  omega

theorem maskAddr_succ_ne (a : Word) : maskAddr a ≠ maskAddr (a + 1) := by
  rw [maskAddr_eq, maskAddr_eq]
  change _ ≠ ((a.toNat + 1) % 65536) % 4096
  omega

theorem State.fetchWord_placeWord (w : Word) : (s.placeWord w).fetchWord = w := by
  show wordOfBytes (((s.mem.write (maskAddr s.pc) (highByte w)).write (maskAddr (s.pc + 1)) (lowByte w)).read (maskAddr s.pc))
    (((s.mem.write (maskAddr s.pc) (highByte w)).write (maskAddr (s.pc + 1)) (lowByte w)).read (maskAddr (s.pc + 1))) = w
  rw [Memory.read_write_same, Memory.read_write_ne _ _ (maskAddr_succ_ne s.pc), Memory.read_write_same,
    wordOfBytes_highByte_lowByte]

theorem State.placeWord_wf (w : Word) (h : s.mem.wf = true) : (s.placeWord w).mem.wf = true :=
  State.writeByte_wf _ _ (State.writeByte_wf _ _ h)

end Sys2Proof.Machine
end

