-- ==== Sys2Proof/Tests/Slice0.lean ====
section
/-! SUPPORT. The model against the spec's own numbers: ill-formed terms the checks refuse, a word of every instruction decoded,
the vectors of spec/95_test_vectors.md (named in each test), and a witness for the hypotheses of every statement. -/

namespace Sys2Proof.Tests

open Sys2Proof.Machine Sys2Proof.Statements

/-! ### Helpers -/

/-- The vectors' start state: reset, `keys` and `rnd` driven to 0, `FONT_BASE` 0x050, the other parameters at R6's defaults. -/
def bench : State :=
  { State.reset with params := ⟨.vx, .resultLast, 0x050, 5⟩, keys := some 0, rnd := some 0 }

/-- `bench` with the stack in use up to SP = depth − 1, every entry 0x456. -/
def nested (depth : Fin 17) : State := { bench with depth := depth, stack := Vector.replicate 16 0x456 }

/-- `bench` halted by a stack underflow at 0x200 (vector C9), DT = ST = 2. -/
def halted : State :=
  { bench with
    status := .halted, faultCause := .stackUnderflow, faultAddr := 0x200, pc := 0x202, dt := 2, st := 2,
    events := [⟨.stackUnderflow, 0x200, 0x00EE⟩] }

/-- `bench` waiting for a key for V3, with the given baseline (vector K7). -/
def waiting (baseline : Keys) : State :=
  { bench with status := .waiting, waitReg := 3, keyPrev := baseline, pc := 0x202, stepped := true }

/-- The next state, if there is one. -/
def nextOf (o : Host.Outcome State Fault Refusal) : Option State :=
  match o with
  | .next t => some t
  | _       => none

/-- The state after one step on a word at PC. -/
def after (s : State) (w : Nat) : Option State := nextOf (step (s.withFetchWord 16 w))

/-- The state after one host event. -/
def afterEvent (s : State) (e : HostEvent) : Option State := nextOf (step { s with pending := [e] })

/-- Bytes stored from an address on. -/
def bytesAt (a : Word) : List Byte → State → State
  | [], s => s
  | b :: rest, s => bytesAt (a + 1) rest (s.writeByte a b)

/-! ### Well-formedness refuses an ill-formed term, check by check (R62, R63, R136, R137, R33) -/

theorem test_illFormed_family0 : wordWellFormed 0x0123 = false ∧ wordWellFormed 0x00E1 = false := by decide
theorem test_illFormed_family5 : wordWellFormed 0x5011 = false := by decide
theorem test_illFormed_family8 : wordWellFormed 0x8008 = false ∧ wordWellFormed 0x800F = false := by decide
theorem test_illFormed_family9 : wordWellFormed 0x9011 = false := by decide
theorem test_illFormed_familyE : wordWellFormed 0xE09F = false := by decide
theorem test_illFormed_familyF : wordWellFormed 0xF008 = false := by decide
theorem test_illFormed_rom : romWellFormed (List.replicate 3585 0) = false := by
  rw [romWellFormed, List.length_replicate]; decide
theorem test_illFormed_font : fontWellFormed bench.params [0xF0, 0x90] = false := by decide
theorem test_illFormed_pixel : pixelQueryWellFormed 64 0 = false ∧ pixelQueryWellFormed 0 32 = false := by decide

/-! ### A word of each instruction, its bits laid out by R53 and its row of R62 -/

theorem test_decode_family0 :
    decodeWord 0b0000000011100000 = some .op00E0 ∧ decodeWord 0b0000000011101110 = some .op00EE := by decide
theorem test_decode_jumps :
    decodeWord 0b0001101010111100 = some (.op1NNN 0xABC) ∧ decodeWord 0b0010001101000101 = some (.op2NNN 0x345) ∧
    decodeWord 0b1011010111111111 = some (.opBNNN 0x5FF) := by decide
theorem test_decode_skips :
    decodeWord 0b0011001101000010 = some (.op3XNN 3 0x42) ∧ decodeWord 0b0100001101000010 = some (.op4XNN 3 0x42) ∧
    decodeWord 0b0101000100100000 = some (.op5XY0 1 2) ∧ decodeWord 0b1001000100100000 = some (.op9XY0 1 2) := by decide
theorem test_decode_immediates :
    decodeWord 0b0110101001000010 = some (.op6XNN 10 0x42) ∧ decodeWord 0b0111001100100000 = some (.op7XNN 3 0x20) ∧
    decodeWord 0b1010001000011100 = some (.opANNN 0x21C) ∧ decodeWord 0b1100001100001111 = some (.opCXNN 3 0x0F) := by
  decide
theorem test_decode_family8 :
    decodeWord 0b1000000100100000 = some (.op8XY0 1 2) ∧ decodeWord 0b1000000100100001 = some (.op8XY1 1 2) ∧
    decodeWord 0b1000000100100010 = some (.op8XY2 1 2) ∧ decodeWord 0b1000000100100011 = some (.op8XY3 1 2) ∧
    decodeWord 0b1000000100100100 = some (.op8XY4 1 2) ∧ decodeWord 0b1000000100100101 = some (.op8XY5 1 2) ∧
    decodeWord 0b1000000100100110 = some (.op8XY6 1 2) ∧ decodeWord 0b1000000100100111 = some (.op8XY7 1 2) ∧
    decodeWord 0b1000000100101110 = some (.op8XYE 1 2) := by decide
theorem test_decode_draw : decodeWord 0b1101000100100101 = some (.opDXYN 1 2 5) := by decide
theorem test_decode_familyE :
    decodeWord 0b1110000110011110 = some (.opEX9E 1) ∧ decodeWord 0b1110000110100001 = some (.opEXA1 1) := by decide
theorem test_decode_familyF :
    decodeWord 0b1111010100000111 = some (.opFX07 5) ∧ decodeWord 0b1111001100001010 = some (.opFX0A 3) ∧
    decodeWord 0b1111010100010101 = some (.opFX15 5) ∧ decodeWord 0b1111000000011000 = some (.opFX18 0) ∧
    decodeWord 0b1111001000011110 = some (.opFX1E 2) ∧ decodeWord 0b1111010000101001 = some (.opFX29 4) ∧
    decodeWord 0b1111000000110011 = some (.opFX33 0) ∧ decodeWord 0b1111001001010101 = some (.opFX55 2) ∧
    decodeWord 0b1111001001100101 = some (.opFX65 2) := by decide

/-- The table's numbering lays a word out as two bytes, the high byte first (R38). -/
theorem test_decodeTableWord : decodeTableWord 16 0x8014 = some (.op8XY4 0 1) ∧ decodeTableWord 16 0x5011 = none := by
  decide

/-! ### Fetch and invalid opcodes -/

/-- F2: the fetch at 0xFFF takes its low byte from 0x000. -/
theorem test_F2 : (nextOf (step ({ bytesAt 0x000 [0x34] (bytesAt 0xFFF [0x12] bench) with pc := 0xFFF }))).map (·.pc) =
    some 0x234 := by decide
/-- F3: a fetch at PC = 0x1001 is masked; 0x0000 is invalid. -/
theorem test_F3 : (nextOf (step { bench with pc := 0x1001 })).map (fun t => (t.pc, t.events)) =
    some (0x1003, [⟨.invalidOpcode, 0x1001, 0x0000⟩]) := by decide
/-- F4: PC wraps modulo 2^16. -/
theorem test_F4 : (nextOf (step (bytesAt 0xFFE [0x60, 0x07] { bench with pc := 0xFFFE }))).map (fun t => (t.pc, t.readV 0)) =
    some (0x0000, 0x07) := by decide
/-- F5: 0NNN is an invalid opcode. -/
theorem test_F5 : (after bench 0x0123).map (fun t => (t.pc, t.status, t.events)) =
    some (0x202, .running, [⟨.invalidOpcode, 0x200, 0x0123⟩]) := by decide

/-! ### Control flow -/

/-- C8. -/
theorem test_00EE_C8 : (after (nested 1) 0x00EE).map (fun t => (t.pc, t.sp)) = some (0x456, -1) := by decide
/-- C9. -/
theorem test_00EE_C9 : (after bench 0x00EE).map
    (fun t => (t.status, t.faultCause, t.faultAddr, t.pc, t.events)) =
    some (.halted, .stackUnderflow, 0x200, 0x202, [⟨.stackUnderflow, 0x200, 0x00EE⟩]) := by decide
/-- C2. -/
theorem test_1NNN_C2 : (after bench 0x1201).map (·.pc) = some 0x201 := by decide
/-- C5. -/
theorem test_2NNN_C5 : (after (nested 15) 0x2300).map (fun t => (t.sp, t.stack[15], t.pc)) =
    some (15, 0x202, 0x300) := by decide
/-- C6. -/
theorem test_2NNN_C6 : (after (nested 16) 0x2300).map (fun t => (t.status, t.faultCause, t.pc, t.stack[15], t.events)) =
    some (.halted, .stackOverflow, 0x202, 0x456, [⟨.stackOverflow, 0x200, 0x2300⟩]) := by decide
/-- C10. -/
theorem test_3XNN_C10 : (after (bench.writeV 3 0x42) 0x3342).map (·.pc) = some 0x204 := by decide
/-- C20: a skip at 0xFFFE wraps. -/
theorem test_3XNN_C20 : (after { bench with pc := 0xFFFE } 0x3000).map (·.pc) = some 0x0002 := by decide
/-- C12. -/
theorem test_4XNN_C12 : (after (bench.writeV 3 0x41) 0x4342).map (·.pc) = some 0x204 := by decide
/-- C13. -/
theorem test_4XNN_C13 : (after (bench.writeV 3 0x42) 0x4342).map (·.pc) = some 0x202 := by decide
/-- C14. -/
theorem test_5XY0_C14 : (after ((bench.writeV 1 7).writeV 2 7) 0x5120).map (·.pc) = some 0x204 := by decide
/-- C15. -/
theorem test_5XY0_C15 : (after ((bench.writeV 1 7).writeV 2 8) 0x5120).map (·.pc) = some 0x202 := by decide
/-- C17. -/
theorem test_9XY0_C17 : (after ((bench.writeV 1 7).writeV 2 8) 0x9120).map (·.pc) = some 0x204 := by decide
/-- C18. -/
theorem test_9XY0_C18 : (after (bench.writeV 1 7) 0x9110).map (·.pc) = some 0x202 := by decide
/-- C22. -/
theorem test_BNNN_C22 : (after ((bench.writeV 0 2).writeV 5 0x40) 0xB5FF).map (·.pc) = some 0x601 := by decide
/-- C24. -/
theorem test_BNNN_C24 : (after (bench.writeV 0 0xFF) 0xBFFF).map (·.pc) = some 0x10FE := by decide

/-! ### Registers and ALU -/

/-- A2. -/
theorem test_6XNN_A2 : (after (bench.writeV 15 1) 0x6F00).map (·.readV 15) = some 0 := by decide
/-- A3. -/
theorem test_7XNN_A3 : (after (bench.writeV 0 0xFF) 0x70FF).map (fun t => (t.readV 0, t.readV 15)) = some (0xFE, 0) := by
  decide
/-- E1, with X = F. -/
theorem test_7XNN_E1 : (after (bench.writeV 15 0xFE) 0x7F01).map (·.readV 15) = some 0xFF := by decide
/-- A4. -/
theorem test_8XY0_A4 : (after ((bench.writeV 0 0x33).writeV 1 0x44) 0x8010).map (fun t => (t.readV 0, t.readV 1)) =
    some (0x44, 0x44) := by decide
/-- A5. -/
theorem test_8XY1_A5 : (after (((bench.writeV 0 0x0F).writeV 1 0xF0).writeV 15 7) 0x8011).map
    (fun t => (t.readV 0, t.readV 15)) = some (0xFF, 7) := by decide
/-- A6. -/
theorem test_8XY2_A6 : (after (((bench.writeV 0 0x3C).writeV 1 0x0F).writeV 15 7) 0x8012).map
    (fun t => (t.readV 0, t.readV 15)) = some (0x0C, 7) := by decide
/-- A7. -/
theorem test_8XY3_A7 : (after (((bench.writeV 0 0xFF).writeV 1 0x0F).writeV 15 7) 0x8013).map
    (fun t => (t.readV 0, t.readV 15)) = some (0xF0, 7) := by decide
/-- A9. -/
theorem test_8XY4_A9 : (after ((bench.writeV 0 0xFF).writeV 1 1) 0x8014).map (fun t => (t.readV 0, t.readV 15)) =
    some (0, 1) := by decide
/-- A11, under both write orders. -/
theorem test_8XY4_A11 :
    (after ((bench.writeV 15 0xFF).writeV 1 3) 0x8F14).map (·.readV 15) = some 2 ∧
    (after ({ bench with params := ⟨.vx, .flagLast, 0x050, 5⟩ }.writeV 15 0xFF |>.writeV 1 3) 0x8F14).map (·.readV 15) =
      some 1 := by decide
/-- A12. -/
theorem test_8XY5_A12 : (after ((bench.writeV 0 5).writeV 1 7) 0x8015).map (fun t => (t.readV 0, t.readV 15)) =
    some (0xFE, 0) := by decide
/-- A14: Y = F uses the old VF. -/
theorem test_8XY5_A14 : (after ((bench.writeV 1 5).writeV 15 1) 0x81F5).map (fun t => (t.readV 1, t.readV 15)) =
    some (4, 1) := by decide
/-- A15. -/
theorem test_8XY6_A15 : (after ((bench.writeV 0 5).writeV 1 0xFF) 0x8016).map (fun t => (t.readV 0, t.readV 15)) =
    some (2, 1) := by decide
/-- A16, `SHIFT_SOURCE` = VY. -/
theorem test_8XY6_A16 :
    (after ({ bench with params := ⟨.vy, .resultLast, 0x050, 5⟩ }.writeV 0 5 |>.writeV 1 0xFF) 0x8016).map
      (fun t => (t.readV 0, t.readV 15)) = some (0x7F, 1) := by decide
/-- A19. -/
theorem test_8XY7_A19 : (after ((bench.writeV 0 5).writeV 1 7) 0x8017).map (fun t => (t.readV 0, t.readV 15)) =
    some (2, 1) := by decide
/-- A20: VY is not the target. -/
theorem test_8XY7_A20 : (after ((bench.writeV 0 7).writeV 1 5) 0x8017).map
    (fun t => (t.readV 0, t.readV 1, t.readV 15)) = some (0xFE, 5, 0) := by decide
/-- A22, `SHIFT_SOURCE` = VY. -/
theorem test_8XYE_A22 :
    (after ({ bench with params := ⟨.vy, .resultLast, 0x050, 5⟩ }.writeV 0 1 |>.writeV 1 0x81) 0x801E).map
      (fun t => (t.readV 0, t.readV 15)) = some (2, 1) := by decide
/-- A24: X = F, result last. -/
theorem test_8XYE_A24 : (after (bench.writeV 15 0x81) 0x8F0E).map (·.readV 15) = some 2 := by decide
/-- A25. -/
theorem test_CXNN_A25 : (after { bench with rnd := some 0xA7 } 0xC30F).map (·.readV 3) = some 0x07 := by decide

/-! ### Index register and memory -/

/-- M1. -/
theorem test_ANNN_M1 : (after bench 0xA21C).map (·.i) = some 0x21C := by decide
/-- M3: modulo 4096, and no flag. -/
theorem test_FX1E_M3 : (after (({ bench with i := 0xFFF }.writeV 0 2).writeV 15 9) 0xF01E).map (fun t => (t.i, t.readV 15)) =
    some (0x001, 9) := by decide
/-- M5: the low nibble. -/
theorem test_FX29_M5 : (after (bench.writeV 0 0x1A) 0xF029).map (·.i) = some 0x082 := by decide
/-- M6: the mask. -/
theorem test_FX29_M6 :
    (after ({ bench with params := ⟨.vx, .resultLast, 0xFF0, 5⟩ }.writeV 15 0x0F) 0xFF29).map (·.i) = some 0x03B := by decide
/-- E9. -/
theorem test_FX33_E9 : (after ({ bench with i := 0x300 }.writeV 0 205) 0xF033).map
    (fun t => (t.mem.read 0x300, t.mem.read 0x301, t.mem.read 0x302, t.i)) = some (2, 0, 5, 0x300) := by decide
/-- M13: past the top of memory. -/
theorem test_FX33_M13 : (after ({ bench with i := 0xFFE }.writeV 0 123) 0xF033).map
    (fun t => (t.mem.read 0xFFE, t.mem.read 0xFFF, t.mem.read 0x000)) = some (1, 2, 3) := by decide
/-- M14. -/
theorem test_FX55_M14 :
    (after (bytesAt 0x303 [0x77] ((({ bench with i := 0x300 }.writeV 0 1).writeV 1 2).writeV 2 3)) 0xF255).map
      (fun t => ((List.range 4).map fun k => t.mem.read (0x300 + k), t.i)) = some ([1, 2, 3, 0x77], 0x300) := by decide
/-- M20: the step runs the word it fetched; memory holds the new one. -/
theorem test_FX55_M20 : (after ({ bench with i := 0x200 }.writeV 0 0x60) 0xF055).map
    (fun t => (t.mem.read 0x200, t.mem.read 0x201, t.pc)) = some (0x60, 0x55, 0x202) := by decide
/-- M17. -/
theorem test_FX65_M17 : (after (bytesAt 0x300 [9, 8, 7, 6, 5] ({ bench with i := 0x300 }.writeV 4 0x44)) 0xF365).map
    (fun t => ([0, 1, 2, 3, 4].map t.readV, t.i)) = some ([9, 8, 7, 6, 0x44], 0x300) := by decide
/-- M18: past the top of memory. -/
theorem test_FX65_M18 : (after (bytesAt 0xFFF [0x11, 0x22] { bench with i := 0xFFF }) 0xF165).map
    (fun t => (t.readV 0, t.readV 1)) = some (0x11, 0x22) := by decide

/-! ### Display -/

/-- D1 (E4), at the lit pixels. -/
theorem test_00E0_D1 : (after ({ bench with fb := (bench.fb.flip 5 5).flip 63 31 }.writeV 15 7) 0x00E0).map
    (fun t => (t.fb.pixel 5 5, t.fb.pixel 63 31, t.readV 15)) = some (false, false, 7) := by decide
/-- D3: wrapping on both axes. -/
theorem test_DXYN_D3 :
    (after (bytesAt 0x300 [0xC0, 0x40] (({ bench with i := 0x300 }.writeV 0 63).writeV 1 31)) 0xD012).map
      (fun t => (t.fb.pixel 63 31, t.fb.pixel 0 31, t.fb.pixel 63 0, t.fb.pixel 0 0, t.readV 15)) =
    some (true, true, false, true, 0) := by decide
/-- D5: a collision. -/
theorem test_DXYN_D5 :
    (after (bytesAt 0x300 [0xC0] ({ bench with i := 0x300, fb := (bench.fb.flip 0 0).flip 1 0 }.writeV 0 1)) 0xD011).map
      (fun t => (t.fb.pixel 0 0, t.fb.pixel 1 0, t.fb.pixel 2 0, t.readV 15)) = some (true, false, true, 1) := by decide

/-! ### Keypad and timers -/

/-- K1. -/
theorem test_EX9E_K1 : (after ({ bench with keys := some 0x0020 }.writeV 0 5) 0xE09E).map (·.pc) = some 0x204 := by decide
/-- K5: the index is out of range. -/
theorem test_EX9E_K5 : (after ({ bench with keys := some 0xFFFF }.writeV 0 16) 0xE09E).map (fun t => (t.pc, t.events)) =
    some (0x202, [⟨.keyIndexRange, 0x200, 0x10⟩]) := by decide
/-- K4. -/
theorem test_EXA1_K4 : (after (bench.writeV 0 5) 0xE0A1).map (·.pc) = some 0x204 := by decide
/-- K6: no skip either. -/
theorem test_EXA1_K6 : (after (bench.writeV 0 0xFF) 0xE0A1).map (fun t => (t.pc, t.events)) =
    some (0x202, [⟨.keyIndexRange, 0x200, 0xFF⟩]) := by decide
/-- K7. -/
theorem test_FX0A_K7 : (after { bench with keys := some 0x0004 } 0xF30A).map
    (fun t => (t.status, t.waitReg, t.keyPrev, t.pc)) = some (.waiting, 3, 0x0004, 0x202) := by decide
/-- K10: the lowest new key ends the wait. -/
theorem test_FX0A_K10 : (nextOf (step { waiting 0 with keys := some 0x0210 })).map
    (fun t => (t.readV 3, t.status, t.keyPrev, t.pc)) = some (4, .running, 0x0210, 0x202) := by decide
/-- K12. -/
theorem test_FX07_K12 : (after { bench with dt := 0x2A } 0xF507).map (·.readV 5) = some 0x2A := by decide
/-- R112's example. -/
theorem test_FX15 : (after (bench.writeV 5 0x3C) 0xF515).map (·.dt) = some 0x3C := by decide
/-- K14: one beep. -/
theorem test_FX18_K14 : (after { bench with st := 3 } 0xF018).map (fun t => (t.st, t.beeps)) = some (0, 1) := by decide
/-- K16: no beep now. -/
theorem test_FX18_K16 : (after ({ bench with st := 3 }.writeV 0 7) 0xF018).map (fun t => (t.st, t.beeps)) =
    some (7, 0) := by decide

/-! ### Host events -/

/-- X1. -/
theorem test_tick_X1 : (afterEvent { bench with dt := 3, st := 1 } .tick).map (fun t => (t.dt, t.st, t.beeps)) =
    some (2, 0, 1) := by decide
/-- X4. -/
theorem test_tick_X4 : (afterEvent halted .tick).map (fun t => (t.dt, t.st, t.beeps)) = some (2, 2, 0) := by decide
/-- X6. -/
theorem test_cancel_X6 : (afterEvent (waiting 0) .cancel).map
    (fun t => (t.status, t.faultCause, t.faultAddr, t.events, t.readV 3)) =
    some (.halted, .cancelled, 0x202, [⟨.cancelled, 0x202, 0⟩], 0) := by decide
/-- X8. -/
theorem test_reset_X8 : (afterEvent halted .reset).map (fun t => (t.status, t.pc, t.st, t.events, t.beeps)) =
    some (.running, 0x200, 0, [], 0) := by decide
/-- X9. -/
theorem test_load_X9 : (afterEvent bench (.load 0x1234 0xAB)).map (·.mem.read 0x234) = some 0xAB := by decide
/-- R33: the level is the sample of the steps that follow. -/
theorem test_keys_R33 : (afterEvent halted (.keys 0x0020)).map (fun t => (t.keySample, t.rndByte, t.status)) =
    some (0x0020, 0, .halted) := by decide
/-- R33, 41_alu.md R92. -/
theorem test_rnd_R33 : (afterEvent bench (.rnd 0xA7)).map (fun t => (t.rndByte, t.keySample)) = some (0xA7, 0) := by decide
/-- E12: the first fetch after a ROM load. -/
theorem test_loadRom_E12 : (nextOf (State.loadRom [0xA2, 0x1C, 0x60] bench)).map
    (fun t => (t.fetchWord, t.mem.read 0x202)) = some (0xA21C, 0x60) := by decide

/-! ### Witnesses: the hypotheses of each statement are met together -/

/-- A state on a given word at 0x200. -/
def on (w : Nat) : State := bench.withFetchWord 16 w

/-- The same state with a queue that a `step` heads. -/
def queued (s : State) : State := { s with pending := [.step, .tick] }

/-- `RowDecodes` of every row: the words with all operand bits 0, and with all 1. -/
theorem test_witness_RowDecodes : ∀ r ∈ opcodeTable,
    r.pattern &&& r.mask = r.pattern ∧ (r.pattern ||| ~~~r.mask) &&& r.mask = r.pattern := by decide

theorem test_witness_EncodeOfDecode : decodeWord 0xFFFF = none ∧ decodeWord 0xDFFF = some (.opDXYN 15 15 15) := by decide

theorem test_witness_DecodesByOpcodeTable : decodeWord 0x8FFE = some (.op8XYE 15 15) ∧
    (Instr.op8XYE 0 0).row ∈ opcodeTable ∧ 0x8FFE &&& (Instr.op8XYE 0 0).row.mask = (Instr.op8XYE 0 0).row.pattern := by decide

theorem test_witness_StepRunsDecodedInstruction :
    Ready (on 0x1234) ∧ decodeWord (on 0x1234).fetchWord = some (.op1NNN 0x234) ∧
    Ready (queued (on 0x1234)) ∧ decodeWord (queued (on 0x1234)).fetchWord = some (.op1NNN 0x234) :=
  ⟨⟨rfl, rfl⟩, by decide, ⟨rfl, rfl⟩, by decide⟩

theorem test_witness_PlacedWordRunsNext :
    0xFF65 < 65536 ∧ decodeWord (BitVec.ofNat 16 0xFF65) = some (.opFX65 15) := by decide

theorem test_witness_InvalidOpcodeOnlyLogs :
    (Ready (on 0x5011) ∧ ∀ r ∈ opcodeTable, (on 0x5011).fetchWord &&& r.mask ≠ r.pattern) ∧
    (Ready (queued (on 0x5011)) ∧ ∀ r ∈ opcodeTable, (queued (on 0x5011)).fetchWord &&& r.mask ≠ r.pattern) :=
  ⟨⟨⟨rfl, rfl⟩, by decide⟩, ⟨rfl, rfl⟩, by decide⟩

/-- The call with one entry left, and with none; the return with one entry, and with none. -/
theorem test_witness_calls : (nested 15).depth.val < 16 ∧ (nested 16).depth = 16 ∧ 0 < (nested 1).depth.val ∧
    (nested 0).depth = 0 := by decide

theorem test_witness_StackFaultEntry :
    (Ready ((nested 16).withFetchWord 16 0x2FFF) ∧ ((nested 16).withFetchWord 16 0x2FFF).fetchWord &&& 0xF000 = 0x2000 ∧
      ((nested 16).withFetchWord 16 0x2FFF).depth = 16) ∧
    (Ready (queued (on 0x00EE)) ∧ (queued (on 0x00EE)).fetchWord = 0x00EE ∧ (queued (on 0x00EE)).depth = 0) :=
  ⟨⟨⟨rfl, rfl⟩, by decide, rfl⟩, ⟨rfl, rfl⟩, by decide, rfl⟩

/-- `WritesFlagged`: another register beside X and VF; X = F under each write order. -/
theorem test_witness_WritesFlagged : (1 : Reg) ≠ 0 ∧ (1 : Reg) ≠ 15 ∧ (0 : Reg) ≠ 15 ∧
    bench.params.vfWriteOrder = .resultLast ∧
    ({ bench with params := ⟨.vx, .flagLast, 0x050, 5⟩ } : State).params.vfWriteOrder = .flagLast := by decide

theorem test_witness_RandomByteMasked : ({ bench with rnd := some 0xA7 } : State).rnd = some 0xA7 := rfl

/-- With I = 0xFFE the digits go to 0xFFE, 0xFFF and 0x000; 0x001 is none of them. -/
theorem test_witness_DecimalDigitsStored :
    let s := { bench with i := 0xFFE }
    1 ≠ atIndex s 0 ∧ 1 ≠ atIndex s 1 ∧ 1 ≠ atIndex s 2 := by decide

/-- FF55 at I = 0xFF8: VF goes to 0x007, and 0x008 is not stored to. -/
theorem test_witness_RegistersStored :
    let s := { bench with i := 0xFF8 }
    (15 : Reg) ≤ 15 ∧ atIndex s 15 = 7 ∧ ∀ k : Reg, k ≤ 15 → 8 ≠ atIndex s k.val := by decide

theorem test_witness_CanonicalMemoryIsItsBytes :
    Memory.wf [(0x000, 1), (0xFFF, 0xFF)] = true ∧ Memory.wf [(0x000, 0)] = false := by decide

/-- A one-pixel sprite on a lit pixel collides; no rows do not. -/
theorem test_witness_DrawXorsSprite :
    Collides (bytesAt 0x300 [0x80] { bench with i := 0x300, fb := bench.fb.flip 0 0 }) 0 0 1 ∧ ¬ Collides bench 0 0 0 :=
  ⟨⟨0, 0, by decide, by decide⟩, by simp [Collides, spriteBit]⟩

theorem test_witness_DrawTwiceRestoresDisplay : (14 : Reg) ≠ 15 := by decide

theorem test_witness_KeySkips : ((bench.writeV 0 15).v[(0 : Reg)]).toNat ≤ 15 ∧ ((bench.writeV 0 16).v[(0 : Reg)]).toNat > 15 ∧
    bench.keys = some 0 := by decide

theorem test_witness_KeyIndexOutOfRangeOnlyLogs :
    let s := (bench.writeV 15 16).withFetchWord 16 0xEF9E
    let q := queued ((bench.writeV 0 0xFF).withFetchWord 16 0xE0A1)
    (Ready s ∧ s.fetchWord &&& 0xF0FF = 0xE09E ∧ s.v[bitsX s.fetchWord].toNat > 15) ∧
    (Ready q ∧ q.fetchWord &&& 0xF0FF = 0xE0A1 ∧ q.v[bitsX q.fetchWord].toNat > 15) :=
  ⟨⟨⟨rfl, rfl⟩, by decide, by decide⟩, ⟨rfl, rfl⟩, by decide, by decide⟩

theorem test_witness_WaitingStepTakesLowestNewKey :
    let s := { waiting 0x0004 with keys := some 0x8004 }
    let q := queued { waiting 0x0004 with keys := some 0x0004 }
    s.status = .waiting ∧ nextEvent s = .step ∧ (0x8004#16 &&& ~~~s.keyPrev) ≠ 0 ∧
    q.status = .waiting ∧ nextEvent q = .step ∧ (0x0004#16 &&& ~~~q.keyPrev) = 0 := by decide

theorem test_witness_TickDecrementsTimers : bench.status ≠ .halted ∧ (waiting 0).status ≠ .halted ∧
    halted.status = .halted := by decide

theorem test_witness_BeepExactlyAtSoundEnd :
    (∃ t, step { bench with st := 1, pending := [.tick] } = .next t) ∧
    nextEvent { bench with st := 1, pending := [.tick] } ≠ .reset ∧
    (∃ t, step { bench with st := 1, pending := [.reset] } = .next t) ∧
    nextEvent { bench with st := 1, pending := [.reset] } = .reset :=
  ⟨⟨_, rfl⟩, by decide, ⟨_, rfl⟩, rfl⟩

theorem test_witness_HaltedIsTerminal : halted.status = .halted ∧ halted.pending = [] ∧
    ∃ t, step { halted with pending := [.reset] } = .next t ∧ t.status ≠ .halted :=
  ⟨rfl, rfl, _, rfl, by decide⟩

theorem test_witness_FaultOutcomeLasts :
    (faultOutcome halted = some .stackUnderflow ∧ (∃ t, step { halted with pending := [.tick] } = .next t) ∧
      nextEvent { halted with pending := [.tick] } ≠ .reset) ∧
    (faultOutcome (on 0x00EE) = none ∧ (on 0x00EE).status ≠ .halted ∧
      (nextOf (step (on 0x00EE))).bind faultOutcome = some .stackUnderflow) ∧
    (nextOf (step ((nested 16).withFetchWord 16 0x2300))).bind faultOutcome = some .stackOverflow :=
  ⟨⟨rfl, ⟨_, rfl⟩, by decide⟩, ⟨rfl, by decide, by decide⟩, by decide⟩

theorem test_witness_CancelHalts : (waiting 0).status ≠ .halted ∧ halted.status = .halted := by decide

theorem test_witness_LoadBeforeFirstStep : bench.stepped = false ∧ (waiting 0).stepped = true ∧
    (List.replicate 3584 (0xFF : Byte)).length ≤ 3584 ∧ (List.replicate 3585 (0xFF : Byte)).length > 3584 :=
  ⟨rfl, rfl, by rw [List.length_replicate], by rw [List.length_replicate]; decide⟩

/-- A ROM of the full size, and a font of 80 bytes at 0x050, wholly below it. -/
theorem test_witness_BootPlacesFontAndRom : (List.replicate 3584 (0xFF : Byte)).length ≤ 3584 ∧
    (List.replicate 80 (0xF0 : Byte)).length ≤ 4096 ∧ (bench.params.fontBase.toNat + 79) % 4096 < 0x200 :=
  ⟨by rw [List.length_replicate], by rw [List.length_replicate]; decide, by decide⟩

theorem test_witness_PixelPortReadsGrid : 63 < 64 ∧ 31 < 32 ∧ (64 ≤ 64 ∨ 32 ≤ 0) ∧ (64 ≤ 0 ∨ 32 ≤ 32) := by decide

/-- An instruction that changes each of the items, clause by clause. -/
theorem test_witness_OnlyNamedInstructionsWrite :
    (nextOf (exec (.opANNN 1) bench)).map (·.i) ≠ some bench.i ∧
    (nextOf (exec (.op1NNN 1) bench)).map (·.pc) ≠ some bench.pc ∧
    (nextOf (exec (.op2NNN 1) bench)).map (·.stack[0]) ≠ some bench.stack[0] ∧
    (nextOf (exec .op00EE (nested 1))).map (·.depth) ≠ some (nested 1).depth ∧
    (nextOf (exec (.opFX15 0) (bench.writeV 0 1))).map (·.dt) ≠ some bench.dt ∧
    (nextOf (exec (.opFX18 0) (bench.writeV 0 1))).map (·.st) ≠ some bench.st ∧
    (nextOf (exec (.opFX55 0) (bench.writeV 0 1))).map (·.mem) ≠ some bench.mem ∧
    (nextOf (exec (.opDXYN 0 0 1) (bytesAt 0 [0x80] bench))).map (·.fb.pixel 0 0) ≠ some (bench.fb.pixel 0 0) ∧
    (nextOf (exec (.opFX0A 0) bench)).map (·.status) ≠ some bench.status ∧
    (nextOf (exec (.opFX0A 1) bench)).map (·.waitReg) ≠ some bench.waitReg ∧
    (nextOf (exec .op00EE bench)).map (·.faultCause) ≠ some bench.faultCause := by decide

theorem test_witness_FlagWritersOfVF : setsVF (.op8XY4 15 15) = true ∧
    (nextOf (exec (.op8XY4 0 0) (bench.writeV 0 0x80))).map (·.v[(15 : Reg)]) ≠ some (bench.writeV 0 0x80).v[(15 : Reg)] := by
  decide

theorem test_witness_InputsAndParametersKept : (∃ t, exec (.opCXNN 0 0xFF) bench = .next t) ∧
    ∃ t, step { bench with pending := [.keys 1] } = .next t :=
  ⟨⟨_, rfl⟩, _, rfl⟩

/-- Each of the three conditions an instruction logs, and an invalid opcode's step. -/
theorem test_witness_AtMostOneEventRecord :
    (nextOf (exec (.op2NNN 0) (nested 16))).map (·.events) = some (bench.events ++ [⟨.stackOverflow, 0x1FE, 0x2000⟩]) ∧
    (nextOf (exec .op00EE bench)).map (·.events) = some (bench.events ++ [⟨.stackUnderflow, 0x1FE, 0x00EE⟩]) ∧
    (nextOf (exec (.opEXA1 0) (bench.writeV 0 16))).map (·.events) = some (bench.events ++ [⟨.keyIndexRange, 0x1FE, 16⟩]) ∧
    nextEvent (on 0x5011) ≠ .reset := by decide

/-- Two states that differ in the entry just above SP. -/
theorem test_witness_StackAboveSPUnobservable :
    SameBelowSP (nested 1) { nested 1 with stack := (nested 1).stack.set 1 0x777 } ∧
    (nested 1).stack[1] ≠ ((nested 1).stack.set 1 0x777)[1] ∧
    ∃ t, step { nested 1 with pending := [.tick] } = .next t :=
  ⟨⟨rfl, by decide⟩, by decide, _, rfl⟩

/-- Two states that differ in ST and in the pulses so far. -/
theorem test_witness_SoundTimerUnobservable :
    SameButSound bench { bench with st := 9, beeps := 3 } ∧ ∃ t, step { bench with pending := [.tick] } = .next t :=
  ⟨rfl, _, rfl⟩

/-- The invariant holds in a waiting state and in a halted one, which an event leaves for a next state. -/
theorem test_witness_StepKeepsInvariant : Inv (waiting 0x0004) ∧ Inv halted ∧
    (∃ t, step { waiting 0x0004 with pending := [.cancel] } = .next t) :=
  ⟨⟨by decide, by decide, by decide, by decide, by decide, by simp [waiting]⟩,
    ⟨by decide, by decide, by decide, by decide, by decide, fun _ => ⟨_, rfl, rfl, rfl⟩⟩, _, rfl⟩

end Sys2Proof.Tests
end

/-! What one instruction can do to the state, said once: the effects `exec` has, and from them who writes what, what no
instruction writes, and the invariant. -/

namespace Sys2Proof.Machine

open Sys2Proof.Statements

/-! ### The effects of an instruction -/

/-- The ways an instruction may change the state, with the instructions that may do so (10_state.md R15 to R24, R30, R32;
20_memory.md R36). -/
inductive Effect (s : State) : Instr → State → Prop
  /-- registers alone, VF among them only as a flag or as the named destination (R15) -/
  | registers {i : Instr} (v : Vector Byte 16)
      (hVF : v[(15 : Reg)] ≠ s.v[(15 : Reg)] → setsVF i = true ∨ namesVF i = true) : Effect s i { s with v := v }
  /-- I alone, and below 0x1000 (R16) -/
  | index {i : Instr} (a : Word) (ha : a.toNat < 4096)
      (hi : (∃ n, i = .opANNN n) ∨ (∃ x, i = .opFX1E x) ∨ ∃ x, i = .opFX29 x) : Effect s i { s with i := a }
  /-- PC alone: jumps and skips (R17) -/
  | jump {i : Instr} (a : Word)
      (hi : (∃ n, i = .op1NNN n) ∨ (∃ x n, i = .op3XNN x n) ∨ (∃ x n, i = .op4XNN x n) ∨ (∃ x y, i = .op5XY0 x y) ∨
        (∃ x y, i = .op9XY0 x y) ∨ (∃ n, i = .opBNNN n) ∨ (∃ x, i = .opEX9E x) ∨ ∃ x, i = .opEXA1 x) :
      Effect s i (s.jump a)
  /-- a key index out of range: one record -/
  | keyRange {i : Instr} (a w : Word) (hi : (∃ x, i = .opEX9E x) ∨ ∃ x, i = .opEXA1 x) :
      Effect s i (s.log .keyIndexRange a w)
  /-- a call with room on the stack -/
  | call (n : Addr12) (h : s.depth.val < 16) (a : Word) : Effect s (.op2NNN n)
      { s with stack := s.stack.set s.depth.val s.pc, depth := ⟨s.depth.val + 1, by omega⟩, pc := a }
  /-- a call with 16 entries in use -/
  | overflow (n : Addr12) (h : ¬ s.depth.val < 16) (w : Word) : Effect s (.op2NNN n) (s.raise .stackOverflow w)
  /-- a return with an entry on the stack -/
  | ret (h : 0 < s.depth.val) : Effect s .op00EE
      { s with pc := s.stack[s.depth.val - 1]'(by omega), depth := ⟨s.depth.val - 1, by omega⟩ }
  /-- a return on the empty stack -/
  | underflow (h : ¬ 0 < s.depth.val) (w : Word) : Effect s .op00EE (s.raise .stackUnderflow w)
  /-- the display cleared -/
  | clear : Effect s .op00E0 { s with fb := Framebuffer.blank }
  /-- a sprite drawn: the display and VF -/
  | draw (x y : Reg) (n : Fin 16) (fb : Framebuffer) (b : Byte) : Effect s (.opDXYN x y n) ({ s with fb := fb }.writeV VF b)
  /-- memory alone, its canonical form kept (20_memory.md R36) -/
  | store {i : Instr} (m : Memory) (hm : s.mem.wf = true → m.wf = true)
      (hi : (∃ x, i = .opFX33 x) ∨ ∃ x, i = .opFX55 x) : Effect s i { s with mem := m }
  /-- the wait for a key begins -/
  | wait (x : Reg) (k : Keys) : Effect s (.opFX0A x) { s with waitReg := x, keyPrev := k, status := .waiting }
  /-- DT alone -/
  | delay (x : Reg) (b : Byte) : Effect s (.opFX15 x) { s with dt := b }
  /-- ST, with its beep -/
  | sound (x : Reg) (b : Byte) : Effect s (.opFX18 x) (s.setSound b)

section
variable (s : State)

/-- A write to the register an instruction names. -/
theorem effect_writeV {i : Instr} (x : Reg) (b : Byte) (hi : x = 15 → namesVF i = true) : Effect s i (s.writeV x b) :=
  .registers _ fun h => .inr <| hi <| by
    by_contra hx
    exact h ((State.writeV_get s x 15 b).trans (if_neg (Ne.symm hx)))

/-- The write-back of a flag-setting instruction. -/
theorem effect_writeBack {i : Instr} (x : Reg) (o : AluOut) (hi : setsVF i = true) : Effect s i (s.writeBack x o) := by
  rw [State.writeBack_frame]
  exact .registers _ fun _ => .inl hi

theorem effect_loadRegs (x : Reg) : Effect s (.opFX65 x) (s.loadRegs x) := by
  rw [State.loadRegs_frame]
  refine .registers _ fun h => .inr (beq_iff_eq.2 ?_)
  by_contra hx
  have hlt : ¬ (15 : Reg) ≤ x := fun hle => hx (le_antisymm (Fin.le_last x) hle)
  exact h ((State.loadRegs_get s x 15).trans (if_neg hlt))

theorem effect_storeRegs (x : Reg) : Effect s (.opFX55 x) (s.storeRegs x) := by
  rw [State.storeRegs_frame]
  exact .store _ (State.storeRegs_wf s x) (.inr ⟨x, rfl⟩)

theorem effect_skipOnKey {i : Instr} (x : Reg) (w : Bool) (hi : (∃ x, i = .opEX9E x) ∨ ∃ x, i = .opEXA1 x) :
    Effect s i (s.skipOnKey x w) := by
  by_cases h : s.v[x].toNat < 16
  · rw [State.skipOnKey_of_le s w h]
    exact .jump _ (by simp [hi])
  · rw [State.skipOnKey_of_gt s w h]
    exact .keyRange _ _ hi

/-- Every instruction completes with one of the effects. -/
theorem exec_effect (i : Instr) : ∃ t, exec i s = .next t ∧ Effect s i t := by
  cases i
  case op00E0 => exact ⟨_, exec_op00E0 s, .clear⟩
  case op00EE =>
    by_cases h : 0 < s.depth.val
    · exact ⟨_, exec_op00EE_pops s h, .ret h⟩
    · exact ⟨_, exec_op00EE_underflows s h, .underflow h _⟩
  case op2NNN n =>
    by_cases h : s.depth.val < 16
    · exact ⟨_, exec_op2NNN_pushes s n h, .call n h _⟩
    · exact ⟨_, exec_op2NNN_overflows s n h, .overflow n h _⟩
  case op1NNN | op3XNN | op4XNN | op5XY0 | op9XY0 | opBNNN => exact ⟨_, rfl, .jump _ (by simp)⟩
  case op6XNN | op7XNN | op8XY0 | op8XY1 | op8XY2 | op8XY3 | opCXNN | opFX07 =>
    exact ⟨_, rfl, effect_writeV s _ _ beq_iff_eq.2⟩
  case op8XY4 | op8XY5 | op8XY6 | op8XY7 | op8XYE => exact ⟨_, rfl, effect_writeBack s _ _ rfl⟩
  case opANNN n =>
    refine ⟨_, exec_opANNN s n, .index _ ?_ (by simp)⟩
    rw [zext16_eq, BitVec.toNat_ofNat]
    omega
  case opFX1E x =>
    refine ⟨_, exec_opFX1E s x, .index _ ?_ (by simp)⟩
    rw [BitVec.toNat_ofNat]
    omega
  case opFX29 x =>
    refine ⟨_, exec_opFX29 s x, .index _ ?_ (by simp)⟩
    rw [State.fontAddr_eq, BitVec.toNat_ofNat]
    omega
  case opDXYN => exact ⟨_, rfl, .draw ..⟩
  case opEX9E | opEXA1 => exact ⟨_, rfl, effect_skipOnKey s _ _ (by simp)⟩
  case opFX0A => exact ⟨_, rfl, .wait ..⟩
  case opFX15 => exact ⟨_, rfl, .delay ..⟩
  case opFX18 => exact ⟨_, rfl, .sound ..⟩
  case opFX33 x =>
    exact ⟨_, exec_opFX33 s x,
      .store _ (fun h => State.writeByte_wf _ _ (State.writeByte_wf _ _ (State.writeByte_wf _ _ h))) (by simp)⟩
  case opFX55 x => exact ⟨_, rfl, effect_storeRegs s x⟩
  case opFX65 x => exact ⟨_, rfl, effect_loadRegs s x⟩

end

/-- What an instruction answers is one of the effects. -/
theorem effect_of_exec {i : Instr} {s t : State} (h : exec i s = .next t) : Effect s i t := by
  obtain ⟨u, hu, he⟩ := exec_effect s i
  obtain rfl : u = t := by simpa [hu] using h
  exact he

/-! ### What a step and a host event do -/

/-- The state in which a RUNNING step executes its word: PC past it, the step and its sample counted (30_encoding.md R58, R60). -/
def State.executing (s : State) : State := s.sampleInputs.advance

/-- A RUNNING step executes the instruction of the fetched word, or logs an invalid opcode (30_encoding.md R58, R63). -/
theorem runStep_cases {s t : State} (h : runStep s = .next t) :
    (∃ i, exec i s.executing = .next t) ∨ t = s.executing.log .invalidOpcode s.executing.instrAddr s.fetchWord := by
  cases hd : decodeWord s.fetchWord with
  | some i =>
    rw [runStep_decoded s hd] at h
    exact .inl ⟨i, h⟩
  | none =>
    rw [runStep, execWord, hd] at h
    cases h
    exact .inr rfl

/-- A `step` event, by STATUS (30_encoding.md R58, 60_exceptions.md R124). -/
theorem stepEvent_cases {s t : State} (h : stepEvent s = .next t) :
    (s.status = .halted ∧ t = s.markStepped) ∨ (s.status = .waiting ∧ t = s.sampleInputs.waitStep) ∨
    (s.status = .running ∧ ∃ i, exec i s.executing = .next t) ∨
    (s.status = .running ∧ t = s.executing.log .invalidOpcode s.executing.instrAddr s.fetchWord) := by
  cases hs : s.status with
  | halted =>
    rw [stepEvent_halted s hs] at h
    cases h
    exact .inl ⟨rfl, rfl⟩
  | waiting =>
    rw [stepEvent_waiting s hs] at h
    cases h
    exact .inr (.inl ⟨rfl, rfl⟩)
  | running =>
    rw [stepEvent_running s hs] at h
    rcases runStep_cases h with hi | ht
    · exact .inr (.inr (.inl ⟨rfl, hi⟩))
    · exact .inr (.inr (.inr ⟨rfl, ht⟩))

/-! ### The invariant -/

/-- An entry to HALTED keeps the invariant: it records the cause and address it logs (60_exceptions.md R116, R118). -/
theorem inv_halt {s : State} (h : Inv s) {cause : FaultCause} {code : EventCode} (a w : Word) (hc : cause ≠ .none)
    (hcode : code.code = cause.code) : Inv (s.halt cause code a w) where
  memory := h.memory
  index := h.index
  cause := by simp [hc]
  address := fun h0 => absurd h0 hc
  waiting := fun h0 => by cases h0
  logged := fun _ => ⟨⟨code, a, w⟩, by simp, hcode, rfl⟩

/-- A record logged while the machine is not HALTED keeps the invariant. -/
theorem inv_log {s : State} (h : Inv s) (hs : s.status ≠ .halted) (code : EventCode) (a w : Word) : Inv (s.log code a w) :=
  { h with logged := fun h0 => absurd h0 hs }

/-- Leaving and entering a wait keeps the invariant: neither is HALTED, so no cause is recorded. -/
theorem inv_status {s : State} (h : Inv s) (hs : s.status ≠ .halted) {st : Status} (hst : st ≠ .halted)
    (hstep : s.stepped = true) : Inv { s with status := st } :=
  { h with
    cause := ⟨fun h0 => absurd h0 hst, fun h0 => absurd (h.cause.2 h0) hs⟩
    waiting := fun _ => hstep
    logged := fun h0 => absurd h0 hst }

/-- A RUNNING machine's instruction keeps the invariant. -/
theorem exec_inv {i : Instr} {s t : State} (h : Inv s) (hs : s.status = .running) (hstep : s.stepped = true)
    (he : exec i s = .next t) : Inv t := by
  have hrun : s.status ≠ .halted := by simp [hs]
  cases effect_of_exec he with
  | registers | jump | call | ret | clear | draw | delay | sound => exact { h with }
  | index a ha => exact { h with index := ha }
  | keyRange a w => exact inv_log h hrun _ a w
  | overflow | underflow => exact inv_halt h _ _ (by decide) rfl
  | store m hm => exact { h with memory := hm h.memory }
  | wait x k =>
    have hw : Inv { s with status := .waiting } := inv_status h hrun (by decide) hstep
    exact { hw with }

/-- The waiting step keeps the invariant. -/
theorem waitStep_inv {s : State} (h : Inv s) (hs : s.status = .waiting) (hstep : s.stepped = true) : Inv s.waitStep := by
  cases hk : lowestKey (s.keySample &&& ~~~s.keyPrev) with
  | none =>
    rw [State.waitStep_none s hk]
    exact { h with }
  | some j =>
    rw [State.waitStep_some s hk]
    have hw : Inv { s with status := .running } := inv_status h (by simp [hs]) (by decide) hstep
    exact { hw with }

/-- A step noted as issued keeps the invariant. -/
theorem inv_markStepped {s : State} (h : Inv s) : Inv s.markStepped := { h with waiting := fun _ => rfl }

theorem stepEvent_inv {s t : State} (h : Inv s) (he : stepEvent s = .next t) : Inv t := by
  have hm := inv_markStepped h
  have hx : Inv s.executing := { hm with }
  rcases stepEvent_cases he with ⟨_, rfl⟩ | ⟨hs, rfl⟩ | ⟨hs, i, hi⟩ | ⟨hs, rfl⟩
  · exact hm
  · exact waitStep_inv { hm with } hs rfl
  · exact exec_inv hx hs rfl hi
  · exact inv_log hx (by simp [State.executing, hs]) ..

theorem tick_inv {s : State} (h : Inv s) : Inv s.tick := by
  rw [State.tick_frame]
  exact { h with }

theorem cancel_inv {s : State} (h : Inv s) : Inv s.cancel := by
  by_cases hs : s.status = .halted
  · rwa [State.cancel_halted s hs]
  · rw [State.cancel_of_ne s hs]
    exact inv_halt h _ _ (by decide) rfl

/-- Settles O57, item by item. -/
theorem resetMeetsInvariant : Obligations.ResetMeetsInvariant where
  memory := reset_mem_wf
  index := by decide
  cause := by decide
  address := fun _ => rfl
  waiting := fun h => by cases h
  logged := fun h => by cases h

theorem resetEvent_inv (s : State) : Inv s.resetEvent :=
  have h : Inv State.reset := resetMeetsInvariant
  { h with }

theorem hostEvent_inv {e : HostEvent} {s t : State} (h : Inv s) (he : hostEvent e s = .next t) : Inv t := by
  cases e with
  | step => exact stepEvent_inv h he
  | tick => cases he; exact tick_inv h
  | keys k => cases he; exact { h with }
  | rnd b => cases he; exact { h with }
  | load a b =>
    obtain ⟨_, rfl⟩ := State.load_cases s he
    exact { h with memory := State.writeByte_wf a b h.memory }
  | cancel => cases he; exact cancel_inv h
  | reset => cases he; exact resetEvent_inv s

/-- Settles O58: the step is one host event, and each keeps the invariant. -/
theorem stepKeepsInvariant : Obligations.StepKeepsInvariant := by
  intro s t h hstep
  rw [step_eq] at hstep
  have hp : Inv { s with pending := s.pending.tail } := { h with }
  exact hostEvent_inv hp hstep

/-! ### Who writes what -/

/-- Settles O51, effect by effect. -/
theorem onlyNamedInstructionsWrite : Obligations.OnlyNamedInstructionsWrite := by
  intro i s t h
  cases effect_of_exec h with
  | index _ _ hi => simp [hi]
  | store _ _ hi => simp [hi]
  | jump a hi =>
    refine ⟨by simp, fun _ => hi.elim (fun hj => .inr (.inl hj)) fun hr => .inr (.inr (.inr hr)), ?_⟩
    simp
  | registers | keyRange | call | overflow | ret | underflow | clear | draw | wait | delay | sound => simp

end Sys2Proof.Machine

/-! Inputs and parameters, VF, the canonical memory, the reset values and the two host ports. -/

namespace Sys2Proof.Machine

open Sys2Proof.Statements

/-! ### Inputs, parameters and the model's bookkeeping -/

/-- The fields no instruction writes: the inputs, the parameters, the queue and the counters (10_state.md R28, 00_scope.md R6). -/
def SameInputs (s t : State) : Prop :=
  t.keys = s.keys ∧ t.rnd = s.rnd ∧ t.pending = s.pending ∧ t.params = s.params ∧ t.samples = s.samples ∧
    t.stepped = s.stepped

theorem exec_sameInputs {i : Instr} {s t : State} (h : exec i s = .next t) : SameInputs s t := by
  cases effect_of_exec h <;> exact ⟨rfl, rfl, rfl, rfl, rfl, rfl⟩

theorem stepEvent_params_pending {s t : State} (h : stepEvent s = .next t) :
    t.params = s.params ∧ t.pending = s.pending := by
  rcases stepEvent_cases h with ⟨_, rfl⟩ | ⟨_, rfl⟩ | ⟨_, i, hi⟩ | ⟨_, rfl⟩
  · exact ⟨rfl, rfl⟩
  · simp
  · obtain ⟨_, _, hpending, hparams, _, _⟩ := exec_sameInputs hi
    exact ⟨hparams, hpending⟩
  · exact ⟨rfl, rfl⟩

theorem hostEvent_params_pending {e : HostEvent} {s t : State} (h : hostEvent e s = .next t) :
    t.params = s.params ∧ t.pending = s.pending := by
  cases e with
  | step => exact stepEvent_params_pending h
  | load a b =>
    obtain ⟨_, rfl⟩ := State.load_cases s h
    exact ⟨rfl, rfl⟩
  | tick | keys | rnd | cancel | reset => cases h; simp

/-- Settles O53, by the effects of an instruction and the frame of each event. -/
theorem inputsAndParametersKept : Obligations.InputsAndParametersKept := by
  refine ⟨fun i s t h => exec_sameInputs h, fun s t h => ?_⟩
  rw [step_eq] at h
  exact hostEvent_params_pending h

/-! ### VF -/

/-- Write-back changes VF where neither the result nor the flag is what VF held, whichever of the two it gets (R80). -/
theorem writeBack_changes_VF (s : State) (x : Reg) (o : AluOut) (hr : o.result ≠ s.v[(15 : Reg)])
    (hf : flagByte o.flag ≠ s.v[(15 : Reg)]) : (s.writeBack x o).v[(15 : Reg)] ≠ s.v[(15 : Reg)] := by
  rw [State.writeBack_get, if_pos rfl]
  split
  · exact hr
  · exact hf

/-- A state in which every register holds 2, which is no flag and no result of a flag-setting instruction on two such
registers. -/
def allTwo : State := { State.reset with v := Vector.replicate 16 2 }

theorem allTwo_v (r : Reg) : allTwo.v[r] = 2 := by simp [allTwo]

theorem allTwo_shiftSource (x y : Reg) : allTwo.shiftSource x y = 2 := by
  rw [State.shiftSource]
  split
  · exact allTwo_v x
  · exact allTwo_v y

theorem flagByte_ne_two (f : Bool) : flagByte f ≠ 2 := by cases f <;> decide

theorem allTwo_writeBack (x : Reg) (o : AluOut) (h : o.result ≠ 2) :
    (allTwo.writeBack x o).v[(15 : Reg)] ≠ allTwo.v[(15 : Reg)] :=
  writeBack_changes_VF allTwo x o (by rwa [allTwo_v]) (by rw [allTwo_v]; exact flagByte_ne_two _)

/-- Each flag-setting instruction changes VF where every register holds 2. -/
theorem exec_setsVF_allTwo {i : Instr} (h : setsVF i = true) :
    ∃ t, exec i allTwo = .next t ∧ t.v[(15 : Reg)] ≠ allTwo.v[(15 : Reg)] := by
  cases i
  case op8XY4 x y =>
    refine ⟨_, exec_op8XY4 .., allTwo_writeBack x _ ?_⟩
    simp only [State.readV_eq, allTwo_v]
    decide
  case op8XY5 x y | op8XY7 x y =>
    refine ⟨_, rfl, allTwo_writeBack x _ ?_⟩
    simp only [State.readV_eq, allTwo_v]
    decide
  case op8XY6 x y | op8XYE x y =>
    refine ⟨_, rfl, allTwo_writeBack x _ ?_⟩
    rw [allTwo_shiftSource]
    decide
  case opDXYN x y n =>
    refine ⟨_, exec_opDXYN .., ?_⟩
    rw [State.writeV_get, if_pos rfl, allTwo_v]
    exact flagByte_ne_two _
  all_goals cases h

/-- Settles O52: by the effects, and by the state in which every register holds 2. -/
theorem flagWritersOfVF : Obligations.FlagWritersOfVF := by
  refine ⟨fun i s t h hv => ?_, fun i h => ⟨allTwo, exec_setsVF_allTwo h⟩⟩
  cases effect_of_exec h with
  | registers v hVF => exact hVF hv
  | draw => exact .inl rfl
  | index | jump | keyRange | call | overflow | ret | underflow | clear | store | wait | delay | sound => exact absurd rfl hv

/-! ### Canonical memory -/

/-- The byte a canonical list gives first is not what an unlisted address reads as, and the rest is canonical above it. -/
theorem Memory.wfFrom_cons {lo a : Nat} {b : Byte} {rest : Memory} (h : Memory.wfFrom lo ((a, b) :: rest) = true) :
    lo ≤ a ∧ a < memSize ∧ b ≠ Memory.unlisted ∧ rest.wfFrom (a + 1) = true := by
  simpa [Memory.wfFrom, and_assoc] using h

/-- A canonical list is canonical from its own first address on. -/
theorem Memory.wfFrom_self {lo a : Nat} {b : Byte} {rest : Memory} (h : Memory.wfFrom lo ((a, b) :: rest) = true) :
    Memory.wfFrom a ((a, b) :: rest) = true := by
  obtain ⟨_, ha, hb, hrest⟩ := Memory.wfFrom_cons h
  simp [Memory.wfFrom, ha, hb, hrest]

theorem Memory.read_cons_same (a : Nat) (b : Byte) (rest : Memory) : Memory.read ((a, b) :: rest) a = b := by
  simp [Memory.read]

theorem Memory.read_cons_ne {a k : Nat} (b : Byte) (rest : Memory) (h : a ≠ k) :
    Memory.read ((a, b) :: rest) k = rest.read k := by
  simp [Memory.read, h]

/-- Where two canonical memories read alike, neither lists an address before the other's first. -/
theorem Memory.first_le {lo lo' a a' : Nat} {b b' : Byte} {rest rest' : Memory}
    (hwf : Memory.wfFrom lo ((a, b) :: rest) = true) (hwf' : Memory.wfFrom lo' ((a', b') :: rest') = true)
    (hread : ∀ k, k < memSize → Memory.read ((a, b) :: rest) k = Memory.read ((a', b') :: rest') k) : a' ≤ a := by
  obtain ⟨_, ha, hb, _⟩ := Memory.wfFrom_cons hwf
  by_contra hlt
  have hun := Memory.read_of_lt (Memory.wfFrom_self hwf') (not_le.mp hlt)
  rw [← hread a ha, Memory.read_cons_same] at hun
  exact hb hun

/-- A canonical memory that reads as unlisted everywhere is empty. -/
theorem Memory.eq_nil_of_read {m : Memory} {lo : Nat} (hwf : m.wfFrom lo = true)
    (hread : ∀ k, k < memSize → m.read k = Memory.unlisted) : m = [] := by
  cases m with
  | nil => rfl
  | cons c rest =>
    obtain ⟨a, b⟩ := c
    obtain ⟨_, ha, hb, _⟩ := Memory.wfFrom_cons hwf
    exact absurd ((Memory.read_cons_same a b rest).symm.trans (hread a ha)) hb

/-- Canonical memories that read alike are equal: their first entries agree, and so do the rests. -/
theorem Memory.eq_of_read_eq {m : Memory} : ∀ {m' : Memory} {lo lo' : Nat}, m.wfFrom lo = true → m'.wfFrom lo' = true →
    (∀ k, k < memSize → m.read k = m'.read k) → m = m' := by
  induction m with
  | nil => exact fun _ hwf' hread => (Memory.eq_nil_of_read hwf' fun k hk => (hread k hk).symm).symm
  | cons c rest ih =>
    obtain ⟨a, b⟩ := c
    intro m' lo lo' hwf hwf' hread
    cases m' with
    | nil => exact Memory.eq_nil_of_read hwf hread
    | cons c' rest' =>
      obtain ⟨a', b'⟩ := c'
      have hle : a ≤ a' := Memory.first_le hwf' hwf fun k hk => (hread k hk).symm
      obtain rfl : a = a' := le_antisymm hle (Memory.first_le hwf hwf' hread)
      obtain ⟨_, ha, _, hrest⟩ := Memory.wfFrom_cons hwf
      obtain ⟨_, _, _, hrest'⟩ := Memory.wfFrom_cons hwf'
      obtain rfl : b = b' := by simpa only [Memory.read_cons_same] using hread a ha
      have hrests : ∀ k, k < memSize → Memory.read rest k = Memory.read rest' k := by
        intro k hk
        by_cases hak : a = k
        · rw [← hak, Memory.read_of_lt hrest a.lt_succ_self, Memory.read_of_lt hrest' a.lt_succ_self]
        · simpa only [Memory.read_cons_ne _ _ hak] using hread k hk
      rw [ih hrest hrest' hrests]

/-- Settles O31: a canonical memory is canonical from address 0 on. -/
theorem canonicalMemoryIsItsBytes : Obligations.CanonicalMemoryIsItsBytes :=
  fun _ _ hwf hwf' hread => Memory.eq_of_read_eq hwf hwf' hread

/-! ### Reset, the pixel port and the input levels -/

/-- Settles O46, item by item. -/
theorem resetValues : Obligations.ResetValues where
  v := by simp [State.reset]
  i := rfl
  pc := rfl
  sp := rfl
  stack := by simp [State.reset]
  dt := rfl
  st := rfl
  mem := fun _ => rfl
  fb := by simp [State.reset]
  status := rfl
  waitReg := rfl
  keyPrev := rfl
  faultCause := rfl
  faultAddr := rfl
  events := rfl

/-- Settles O50: the two branches of the port. -/
theorem pixelPortReadsGrid : Obligations.PixelPortReadsGrid := by
  refine ⟨fun s x y hx hy => ?_, fun s x y h => ?_⟩
  · rw [State.pixelPort, dif_pos ⟨hx, hy⟩]
    rfl
  · rw [State.pixelPort, dif_neg (by omega)]

/-- Settles O59: each event is one update of its level, and a driven level is what the sample reads. -/
theorem inputEventsSetLevels : Obligations.InputEventsSetLevels :=
  fun _ _ _ _ => ⟨⟨_, rfl, rfl, rfl, rfl⟩, ⟨_, rfl, rfl, rfl, rfl⟩⟩

end Sys2Proof.Machine

/-! Two runs at once: what an event cannot see of the stack above SP, of ST and of the beeps (10_state.md R18, R21). One relation
serves both statements. -/

namespace Sys2Proof.Machine

open Sys2Proof.Statements

/-! ### Two runs -/

/-- Two answers alike: next states related by `R`, or the same refusal. -/
def Agree (R : State → State → Prop) (o o' : Host.Outcome State Fault Refusal) : Prop :=
  (∀ t, o = .next t → ∃ t', o' = .next t' ∧ R t t') ∧ ∀ r, o = .refused r → o' = .refused r

theorem agree_next {R : State → State → Prop} {t t' : State} (h : R t t') : Agree R (.next t) (.next t') :=
  ⟨fun _ ht => ⟨t', rfl, by cases ht; exact h⟩, fun _ hr => by cases hr⟩

theorem agree_refused (R : State → State → Prop) (r : Refusal) : Agree R (.refused r) (.refused r) :=
  ⟨fun _ ht => (by cases ht), fun _ hr => hr⟩

/-- The state with another stack, ST and count of beeps. -/
def State.withUnread (s : State) (stack : Vector Word 16) (st : Byte) (beeps : Nat) : State :=
  { s with stack := stack, st := st, beeps := beeps }

/-- Two states that differ at most in the stack above SP, ST and the beeps: not in the stack where `p` holds, not in ST and
the beeps where `q` holds. -/
structure Alike (p q : Prop) (s s' : State) : Prop where
  rest  : s' = s.withUnread s'.stack s'.st s'.beeps
  below : ∀ k : Fin 16, k.val < s.depth.val → s'.stack[k] = s.stack[k]
  stack : p → s'.stack = s.stack
  sound : q → s'.st = s.st ∧ s'.beeps = s.beeps

theorem sameBelowSP_iff_alike (s s' : State) : SameBelowSP s s' ↔ Alike False True s s' := by
  constructor
  · rintro ⟨hrest, hbelow⟩
    rw [hrest]
    exact ⟨rfl, hbelow, False.elim, fun _ => ⟨rfl, rfl⟩⟩
  · rintro ⟨hrest, hbelow, _, hsound⟩
    obtain ⟨hst, hbeeps⟩ := hsound trivial
    rw [hst, hbeeps] at hrest
    exact ⟨hrest, hbelow⟩

theorem sameButSound_iff_alike (s s' : State) : SameButSound s s' ↔ Alike True False s s' := by
  constructor
  · intro hrest
    rw [hrest]
    exact ⟨rfl, fun _ _ => rfl, fun _ => rfl, False.elim⟩
  · rintro ⟨hrest, _, hstack, _⟩
    rw [hstack trivial] at hrest
    exact hrest

/-! ### What does not look at the stack, ST and the beeps -/

section
variable (s : State) (stack : Vector Word 16) (st : Byte) (beeps : Nat)

theorem writeBack_withUnread (x : Reg) (o : AluOut) :
    (s.withUnread stack st beeps).writeBack x o = (s.writeBack x o).withUnread stack st beeps := by
  by_cases h : x = VF
  · rw [h, State.writeBack_VF, State.writeBack_VF]
    rfl
  · rw [State.writeBack_of_ne _ o h, State.writeBack_of_ne _ o h]
    rfl

theorem loadRegs_withUnread (x : Reg) :
    (s.withUnread stack st beeps).loadRegs x = (s.loadRegs x).withUnread stack st beeps :=
  List.foldl_hom (fun t : State => t.withUnread stack st beeps) fun _ _ => rfl

theorem storeRegs_withUnread (x : Reg) :
    (s.withUnread stack st beeps).storeRegs x = (s.storeRegs x).withUnread stack st beeps :=
  List.foldl_hom (fun t : State => t.withUnread stack st beeps) fun _ _ => rfl

theorem skipOnKey_withUnread (x : Reg) (w : Bool) :
    (s.withUnread stack st beeps).skipOnKey x w = (s.skipOnKey x w).withUnread stack st beeps := by
  by_cases h : s.v[x].toNat < 16
  · rw [State.skipOnKey_of_le s w h, State.skipOnKey_of_le (s.withUnread stack st beeps) w h]
    rfl
  · rw [State.skipOnKey_of_gt s w h, State.skipOnKey_of_gt (s.withUnread stack st beeps) w h]
    rfl

theorem waitStep_withUnread : (s.withUnread stack st beeps).waitStep = s.waitStep.withUnread stack st beeps := by
  cases h : lowestKey (s.keySample &&& ~~~s.keyPrev) with
  | none =>
    rw [State.waitStep_none s h, State.waitStep_none (s.withUnread stack st beeps) h]
    rfl
  | some j =>
    rw [State.waitStep_some s h, State.waitStep_some (s.withUnread stack st beeps) h]
    rfl

theorem cancel_withUnread : (s.withUnread stack st beeps).cancel = s.cancel.withUnread stack st beeps := by
  by_cases h : s.status = .halted
  · rw [State.cancel_halted s h, State.cancel_halted (s.withUnread stack st beeps) h]
  · rw [State.cancel_of_ne s h, State.cancel_of_ne (s.withUnread stack st beeps) h]
    rfl

/-- A tick while not HALTED, as one update: each timer down by 1, clamped at 0, with a beep where ST reaches 0
(60_exceptions.md R126, R127). -/
theorem tick_eq (h : s.status ≠ .halted) : s.tick = { s with
    dt := if s.dt = 0 then 0 else s.dt - 1, st := if s.st = 0 then 0 else s.st - 1,
    beeps := if s.st ≠ 0 ∧ s.st - 1 = 0 then s.beeps + 1 else s.beeps } := by
  rw [State.tick_of_ne s h]
  by_cases hst : s.st = 0
  · rw [if_pos hst]
    simp [hst]
  · rw [if_neg hst, if_neg hst]
    rfl

/-- Every instruction but call, return and FX18 runs as if the stack, ST and the beeps were not there. -/
theorem exec_withUnread {i : Instr} {s t : State} (hret : i ≠ .op00EE) (hcall : ∀ n, i ≠ .op2NNN n)
    (hsound : ∀ x, i ≠ .opFX18 x) (h : exec i s = .next t) :
    exec i (s.withUnread stack st beeps) = .next (t.withUnread stack st beeps) := by
  cases i
  case op00EE => exact absurd rfl hret
  case op2NNN n => exact absurd rfl (hcall n)
  case opFX18 x => exact absurd rfl (hsound x)
  case op8XY4 | op8XY5 | op8XY6 | op8XY7 | op8XYE =>
    cases h
    exact congrArg Host.Outcome.next (writeBack_withUnread ..)
  case opEX9E | opEXA1 =>
    cases h
    exact congrArg Host.Outcome.next (skipOnKey_withUnread ..)
  case opFX55 =>
    cases h
    exact congrArg Host.Outcome.next (storeRegs_withUnread ..)
  case opFX65 =>
    cases h
    exact congrArg Host.Outcome.next (loadRegs_withUnread ..)
  all_goals
    cases h
    rfl

/-- Those instructions leave the stack, SP, ST and the beeps as they were. -/
theorem exec_unread_kept {i : Instr} {s t : State} (hret : i ≠ .op00EE) (hcall : ∀ n, i ≠ .op2NNN n)
    (hsound : ∀ x, i ≠ .opFX18 x) (h : exec i s = .next t) :
    t.stack = s.stack ∧ t.depth = s.depth ∧ t.st = s.st ∧ t.beeps = s.beeps := by
  cases effect_of_exec h with
  | ret | underflow => exact absurd rfl hret
  | call n | overflow n => exact absurd rfl (hcall n)
  | sound x => exact absurd rfl (hsound x)
  | registers | index | jump | keyRange | clear | draw | store | wait | delay => exact ⟨rfl, rfl, rfl, rfl⟩

end

/-! ### Every event keeps two states alike -/

section
variable {p q : Prop} {s : State} {stack : Vector Word 16} {st : Byte} {beeps : Nat}

/-- What leaves the stack, SP, ST and the beeps as they were keeps two states alike. -/
theorem alike_of_kept {t : State} (h : Alike p q s (s.withUnread stack st beeps)) (hstack : t.stack = s.stack)
    (hdepth : t.depth = s.depth) (hst : t.st = s.st) (hbeeps : t.beeps = s.beeps) :
    Alike p q t (t.withUnread stack st beeps) where
  rest := rfl
  below := by rw [hstack, hdepth]; exact h.below
  stack := by rw [hstack]; exact h.stack
  sound := by rw [hst, hbeeps]; exact h.sound

/-- A new value of ST. -/
theorem alike_setSound (h : Alike p q s (s.withUnread stack st beeps)) (b : Byte) :
    Alike p q (s.setSound b) ((s.withUnread stack st beeps).setSound b) where
  rest := rfl
  below := h.below
  stack := h.stack
  sound hq := by
    obtain ⟨hst, hbeeps⟩ := h.sound hq
    rw [State.setSound_beeps, State.setSound_beeps, hst, hbeeps]
    exact ⟨rfl, rfl⟩

/-- A call pushes the same address in both, on the same depth. -/
theorem exec_op2NNN_alike (h : Alike p q s (s.withUnread stack st beeps)) (n : Addr12) :
    Agree (Alike p q) (exec (.op2NNN n) s) (exec (.op2NNN n) (s.withUnread stack st beeps)) := by
  by_cases hd : s.depth.val < 16
  · rw [exec_op2NNN_pushes s n hd, exec_op2NNN_pushes (s.withUnread stack st beeps) n hd]
    refine agree_next ⟨rfl, fun k hk => ?_, fun hp => ?_, h.sound⟩
    · simp only [State.withUnread, Fin.getElem_fin, Vector.getElem_set]
      split
      · rfl
      next hne => exact h.below k (lt_of_le_of_ne (Nat.lt_succ_iff.mp hk) (Ne.symm hne))
    · exact congrArg (fun v : Vector Word 16 => v.set s.depth.val s.pc) (h.stack hp)
  · rw [exec_op2NNN_overflows s n hd, exec_op2NNN_overflows (s.withUnread stack st beeps) n hd]
    exact agree_next (alike_of_kept h rfl rfl rfl rfl)

/-- A return reads the entry at SP, which is the same in both. -/
theorem exec_op00EE_alike (h : Alike p q s (s.withUnread stack st beeps)) :
    Agree (Alike p q) (exec .op00EE s) (exec .op00EE (s.withUnread stack st beeps)) := by
  by_cases hd : 0 < s.depth.val
  · rw [exec_op00EE_pops s hd, exec_op00EE_pops (s.withUnread stack st beeps) hd]
    have htop := h.below ⟨s.depth.val - 1, by omega⟩ (Nat.sub_one_lt_of_lt hd)
    refine agree_next ⟨?_, fun k hk => h.below k (lt_of_lt_of_le hk (Nat.sub_le _ 1)), h.stack, h.sound⟩
    exact congrArg (fun a => State.withUnread { s with pc := a, depth := ⟨s.depth.val - 1, by omega⟩ } stack st beeps) htop
  · rw [exec_op00EE_underflows s hd, exec_op00EE_underflows (s.withUnread stack st beeps) hd]
    exact agree_next (alike_of_kept h rfl rfl rfl rfl)

theorem exec_alike (h : Alike p q s (s.withUnread stack st beeps)) (i : Instr) :
    Agree (Alike p q) (exec i s) (exec i (s.withUnread stack st beeps)) := by
  by_cases hret : i = .op00EE
  · rw [hret]
    exact exec_op00EE_alike h
  by_cases hcall : ∃ n, i = .op2NNN n
  · obtain ⟨n, rfl⟩ := hcall
    exact exec_op2NNN_alike h n
  by_cases hsound : ∃ x, i = .opFX18 x
  · obtain ⟨x, rfl⟩ := hsound
    exact agree_next (alike_setSound h _)
  push Not at hcall hsound
  obtain ⟨t, ht, _⟩ := exec_effect s i
  obtain ⟨hstack, hdepth, hst, hbeeps⟩ := exec_unread_kept hret hcall hsound ht
  rw [ht, exec_withUnread _ _ _ hret hcall hsound ht]
  exact agree_next (alike_of_kept h hstack hdepth hst hbeeps)

theorem stepEvent_alike (h : Alike p q s (s.withUnread stack st beeps)) :
    Agree (Alike p q) (stepEvent s) (stepEvent (s.withUnread stack st beeps)) := by
  cases hs : s.status with
  | halted =>
    rw [stepEvent_halted s hs, stepEvent_halted (s.withUnread stack st beeps) hs]
    exact agree_next (alike_of_kept h rfl rfl rfl rfl)
  | waiting =>
    rw [stepEvent_waiting s hs, stepEvent_waiting (s.withUnread stack st beeps) hs]
    have hw := waitStep_withUnread s.sampleInputs stack st beeps
    exact agree_next (hw ▸ alike_of_kept h (by simp) (by simp) (by simp) (by simp))
  | running =>
    rw [stepEvent_running s hs, stepEvent_running (s.withUnread stack st beeps) hs]
    have hx : Alike p q s.executing (s.executing.withUnread stack st beeps) := alike_of_kept h rfl rfl rfl rfl
    cases hd : decodeWord s.fetchWord with
    | some i =>
      rw [runStep_decoded s hd, runStep_decoded (s.withUnread stack st beeps) hd]
      exact exec_alike hx i
    | none =>
      rw [runStep_invalid s hd, runStep_invalid (s.withUnread stack st beeps) hd]
      exact agree_next (alike_of_kept h rfl rfl rfl rfl)

theorem tick_alike (h : Alike p q s (s.withUnread stack st beeps)) :
    Alike p q s.tick (s.withUnread stack st beeps).tick := by
  by_cases hs : s.status = .halted
  · rw [State.tick_halted s hs, State.tick_halted (s.withUnread stack st beeps) hs]
    exact h
  · rw [tick_eq s hs, tick_eq (s.withUnread stack st beeps) hs]
    refine ⟨rfl, h.below, h.stack, fun hq => ?_⟩
    obtain ⟨hst, hbeeps⟩ := h.sound hq
    simp only [hst, hbeeps, and_self]

theorem hostEvent_alike (h : Alike p q s (s.withUnread stack st beeps)) (e : HostEvent) :
    Agree (Alike p q) (hostEvent e s) (hostEvent e (s.withUnread stack st beeps)) := by
  cases e with
  | step => exact stepEvent_alike h
  | tick => exact agree_next (tick_alike h)
  | keys k => exact agree_next (alike_of_kept h rfl rfl rfl rfl)
  | rnd b => exact agree_next (alike_of_kept h rfl rfl rfl rfl)
  | load a b =>
    cases hs : s.stepped with
    | true =>
      rw [hostEvent, hostEvent, State.load_refused s a b hs, State.load_refused (s.withUnread stack st beeps) a b hs]
      exact agree_refused _ _
    | false =>
      rw [hostEvent, hostEvent, State.load_next s a b hs, State.load_next (s.withUnread stack st beeps) a b hs]
      exact agree_next (alike_of_kept h rfl rfl rfl rfl)
  | cancel => exact agree_next (cancel_withUnread s stack st beeps ▸ alike_of_kept h (by simp) (by simp) (by simp) (by simp))
  | reset => exact agree_next ⟨rfl, fun _ _ => rfl, fun _ => rfl, fun _ => ⟨rfl, rfl⟩⟩

end

/-- Two states alike take the same step, to states alike. -/
theorem step_alike {p q : Prop} {s s' : State} (h : Alike p q s s') : Agree (Alike p q) (step s) (step s') := by
  obtain ⟨stack, st, beeps, rfl⟩ : ∃ stack st beeps, s' = s.withUnread stack st beeps := ⟨_, _, _, h.rest⟩
  rw [step_eq, step_eq]
  have hp : Alike p q { s with pending := s.pending.tail }
      (State.withUnread { s with pending := s.pending.tail } stack st beeps) := alike_of_kept h rfl rfl rfl rfl
  exact hostEvent_alike hp _

/-- Settles O55: two states alike in ST and the beeps as well. -/
theorem stackAboveSPUnobservable : Obligations.StackAboveSPUnobservable := by
  intro s s' h
  simpa only [Agree, ← sameBelowSP_iff_alike] using step_alike ((sameBelowSP_iff_alike s s').1 h)

/-- Settles O56: two states alike in the stack as well. -/
theorem soundTimerUnobservable : Obligations.SoundTimerUnobservable := by
  intro s s' h
  simpa only [Agree, ← sameButSound_iff_alike] using step_alike ((sameButSound_iff_alike s s').1 h)

end Sys2Proof.Machine


/-! The memory accesses (20_memory.md): the fetched word and the byte reads and writes. -/

namespace Sys2Proof.Machine

/-- The byte at the lower address is the high byte of the word (R38). -/
theorem wordOfBytes_toNat (hi lo : Byte) : (wordOfBytes hi lo).toNat = hi.toNat * 256 + lo.toNat :=
  append_toNat hi lo

/-- The address after `a`, masked: the wrap of `a + 1` at 2^16 keeps the low 12 bits (R39). -/
theorem maskAddr_add_one (a : Word) : maskAddr (a + 1) = (a.toNat + 1) % 4096 := by
  rw [maskAddr_eq, BitVec.toNat_add]
  exact Nat.mod_mod_of_dvd _ (by decide)

/-- Settles O7: the word is its two bytes, each read at its masked address. -/
theorem fetchIsBigEndian : Obligations.FetchIsBigEndian := by
  intro s
  rw [State.fetchWord, wordOfBytes_toNat, State.readByte, State.readByte, maskAddr_eq, maskAddr_add_one]

/-- Settles O30: the read after a write, with both addresses masked. -/
theorem memoryReadsLastWrite : Obligations.MemoryReadsLastWrite := by
  intro s a c b
  refine ⟨?_, State.readByte_eq s c⟩
  rw [State.readByte_writeByte, maskAddr_eq, maskAddr_eq]
  exact if_congr eq_comm rfl rfl

end Sys2Proof.Machine

/-! Encoding and decoding (30_encoding.md R51 to R64): the decoder against the encoder, the opcode table and the invalid columns. -/

namespace Sys2Proof

open Sys2Proof.Laws

/-! ### The decoder, family by family -/

section
variable {w : Word}

theorem decodeWord_family8 (hop : fieldOp w = 0x8#4) : decodeWord w = decodeFamily8 w := by
  rw [decodeWord, hop]
  rfl

theorem decodeWord_familyE (hop : fieldOp w = 0xE#4) : decodeWord w = decodeFamilyE w := by
  rw [decodeWord, hop]
  rfl

theorem decodeWord_familyF (hop : fieldOp w = 0xF#4) : decodeWord w = decodeFamilyF w := by
  rw [decodeWord, hop]
  rfl

end

/-! ### Decode of encode -/

/-- Each format gives back its family, its selector and its operands, so the decoder takes the arm of the instruction. -/
theorem decodeWord_encode (i : Instr) : decodeWord (encode i) = some i := by
  cases i
  case op00E0 | op00EE => rfl
  case op1NNN | op2NNN | op3XNN | op4XNN | op5XY0 | op6XNN | op7XNN | op9XY0 | opANNN | opBNNN | opCXNN | opDXYN =>
    simp [encode, decodeWord]
  case op8XY0 | op8XY1 | op8XY2 | op8XY3 | op8XY4 | op8XY5 | op8XY6 | op8XY7 | op8XYE =>
    simp [encode, decodeWord, decodeFamily8]
  case opEX9E | opEXA1 => simp [encode, decodeWord, decodeFamilyE]
  case opFX07 | opFX0A | opFX15 | opFX18 | opFX1E | opFX29 | opFX33 | opFX55 | opFX65 =>
    simp [encode, decodeWord, decodeFamilyF]

/-- Settles O2: the decoder reads back every format. -/
theorem decodeOfEncode : Obligations.DecodeOfEncode := decodeWord_encode

/-! ### A word is the format of its fields (R52, R53) -/

section
variable {w : Word} {op : Nibble}

theorem formatNNN_of_fields (hop : fieldOp w = op) : formatNNN op (fieldNNN w) = w := by
  apply BitVec.eq_of_toNat_eq
  rw [← hop, formatNNN_toNat, fieldOp_toNat, fieldNNN_toNat]
  omega

theorem formatXNN_of_fields {nn : Byte} (hop : fieldOp w = op) (hnn : fieldNN w = nn) :
    formatXNN op (fieldX w) nn = w := by
  apply BitVec.eq_of_toNat_eq
  rw [← hop, ← hnn, formatXNN_toNat, fieldOp_toNat, fieldX_val, fieldNN_toNat]
  omega

theorem formatXYN_of_fields {f : Nibble} (hop : fieldOp w = op) (hf : fieldF w = f) :
    formatXYN op (fieldX w) (fieldY w) f = w := by
  apply BitVec.eq_of_toNat_eq
  rw [← hop, ← hf, formatXYN_toNat, fieldOp_toNat, fieldX_val, fieldY_val, fieldF_toNat]
  omega

end

/-! ### Encode of decode (R61, R64)

In each split the case `h_k` is the k-th arm of the decoder, so that family n of `decodeWord` is `h_(n+1)`. -/

section
variable {w : Word} {i : Instr}

theorem encode_of_decodeFamily8 (hop : fieldOp w = 0x8#4) (h : decodeFamily8 w = some i) : encode i = w := by
  rw [decodeFamily8] at h
  split at h
  case h_10 => cases h
  all_goals
    next hf =>
    cases h
    exact formatXYN_of_fields hop hf

theorem encode_of_decodeFamilyE (hop : fieldOp w = 0xE#4) (h : decodeFamilyE w = some i) : encode i = w := by
  rw [decodeFamilyE] at h
  split at h
  case h_3 => cases h
  all_goals
    next hnn =>
    cases h
    exact formatXNN_of_fields hop hnn

theorem encode_of_decodeFamilyF (hop : fieldOp w = 0xF#4) (h : decodeFamilyF w = some i) : encode i = w := by
  rw [decodeFamilyF] at h
  split at h
  case h_10 => cases h
  all_goals
    next hnn =>
    cases h
    exact formatXNN_of_fields hop hnn

/-- Each family fixes its format, and no field of the word is ignored. -/
theorem encode_of_decodeWord (h : decodeWord w = some i) : encode i = w := by
  rw [decodeWord] at h
  split at h
  case h_1 =>
    split_ifs at h with hE0 hEE
    · cases h
      exact hE0.symm
    · cases h
      exact hEE.symm
  case h_2 hop | h_3 hop | h_11 hop | h_12 hop =>
    cases h
    exact formatNNN_of_fields hop
  case h_4 hop | h_5 hop | h_7 hop | h_8 hop | h_13 hop =>
    cases h
    exact formatXNN_of_fields hop rfl
  case h_6 hop | h_10 hop =>
    split_ifs at h with hf
    cases h
    exact formatXYN_of_fields hop hf
  case h_14 hop =>
    cases h
    exact formatXYN_of_fields hop rfl
  case h_9 hop => exact encode_of_decodeFamily8 hop h
  case h_15 hop => exact encode_of_decodeFamilyE hop h
  case h_16 hop => exact encode_of_decodeFamilyF hop h
  case h_17 => cases h

end

/-- Settles O3: a word that decodes is rebuilt from its fields. -/
theorem encodeOfDecode : Obligations.EncodeOfDecode := fun _ _ => encode_of_decodeWord

/-! ### The opcode table (R61, R62) -/

section
open EncodeFits

/-- Every instruction's word fits the instruction's row, and the row is in the table. -/
theorem encode_fits (i : Instr) : Statement i :=
  i.casesOn op00E0 op00EE op1NNN op2NNN op3XNN op4XNN op5XY0 op6XNN op7XNN op8XY0 op8XY1 op8XY2 op8XY3 op8XY4 op8XY5
    op8XY6 op8XY7 op8XYE op9XY0 opANNN opBNNN opCXNN opDXYN opEX9E opEXA1 opFX07 opFX0A opFX15 opFX18 opFX1E opFX29
    opFX33 opFX55 opFX65

end

theorem decodeWord_fits {w : Word} {i : Instr} (h : decodeWord w = some i) :
    i.row ∈ opcodeTable ∧ w &&& i.row.mask = i.row.pattern := by
  obtain rfl := encode_of_decodeWord h
  exact encode_fits i

/-- A row's mask keeps the family and the selector, so a word that fits the row takes an arm of the decoder with that row. -/
theorem exists_decodeWord_of_fits_row {w : Word} {i : Instr} (h : w &&& i.row.mask = i.row.pattern) :
    ∃ j, decodeWord w = some j ∧ j.row = i.row := by
  cases i <;> rw [Instr.row] at h
  case op00E0 | op00EE =>
    obtain rfl := (BitVec.and_allOnes (x := w)).symm.trans h
    exact ⟨_, rfl, rfl⟩
  case op1NNN | op2NNN | op3XNN | op4XNN | op6XNN | op7XNN | opANNN | opBNNN | opCXNN | opDXYN =>
    rw [decodeWord, fieldOp_of_mask h rfl]
    exact ⟨_, rfl, rfl⟩
  case op5XY0 | op9XY0 =>
    rw [decodeWord, fieldOp_of_mask h rfl, fieldF_of_mask h rfl]
    exact ⟨_, rfl, rfl⟩
  case op8XY0 | op8XY1 | op8XY2 | op8XY3 | op8XY4 | op8XY5 | op8XY6 | op8XY7 | op8XYE =>
    rw [decodeWord_family8 (fieldOp_of_mask h rfl), decodeFamily8, fieldF_of_mask h rfl]
    exact ⟨_, rfl, rfl⟩
  case opEX9E | opEXA1 =>
    rw [decodeWord_familyE (fieldOp_of_mask h rfl), decodeFamilyE, fieldNN_of_mask h rfl]
    exact ⟨_, rfl, rfl⟩
  case opFX07 | opFX0A | opFX15 | opFX18 | opFX1E | opFX29 | opFX33 | opFX55 | opFX65 =>
    rw [decodeWord_familyF (fieldOp_of_mask h rfl), decodeFamilyF, fieldNN_of_mask h rfl]
    exact ⟨_, rfl, rfl⟩

theorem exists_row_of_mem_opcodeTable {r : OpRow} (h : r ∈ opcodeTable) : ∃ i : Instr, i.row = r := by
  simp only [opcodeTable, opcodeTableLow, opcodeTable8, opcodeTableHigh, opcodeTableF, ← List.map_append] at h
  obtain ⟨i, _, hi⟩ := List.mem_map.1 h
  exact ⟨i, hi⟩

theorem exists_decodeWord_of_fits {w : Word} {r : OpRow} (hr : r ∈ opcodeTable) (h : w &&& r.mask = r.pattern) :
    ∃ i, decodeWord w = some i ∧ i.row = r := by
  obtain ⟨i, rfl⟩ := exists_row_of_mem_opcodeTable hr
  exact exists_decodeWord_of_fits_row h

/-- Both rows are the row of the one instruction the word decodes to. -/
theorem row_unique {w : Word} {r r' : OpRow} (hr : r ∈ opcodeTable) (hr' : r' ∈ opcodeTable)
    (h : w &&& r.mask = r.pattern) (h' : w &&& r'.mask = r'.pattern) : r = r' := by
  obtain ⟨i, hi, rfl⟩ := exists_decodeWord_of_fits hr h
  obtain ⟨j, hj, rfl⟩ := exists_decodeWord_of_fits hr' h'
  exact congrArg Instr.row (Option.some.inj (hi.symm.trans hj))

theorem decodeWord_eq_none {w : Word} (h : ∀ r ∈ opcodeTable, w &&& r.mask ≠ r.pattern) : decodeWord w = none :=
  Option.eq_none_iff_forall_ne_some.2 fun i hi =>
    have ⟨hrow, hfits⟩ := decodeWord_fits hi
    h i.row hrow hfits

/-- Settles O4: a decoded word is its instruction's encoding, which fits the row; a word that fits a row takes the row's arm. -/
theorem decodesByOpcodeTable : Obligations.DecodesByOpcodeTable :=
  ⟨fun _ _ => decodeWord_fits, fun _ _ => exists_decodeWord_of_fits, fun _ _ _ => row_unique⟩

/-! ### The invalid columns (R62) -/

/-- The range of family 8's selectors, listed. -/
theorem selector8_eq_contains : ∀ f : Nibble, (decide (f ≤ 7#4) || f == 0xE#4) =
    [0x0#4, 0x1#4, 0x2#4, 0x3#4, 0x4#4, 0x5#4, 0x6#4, 0x7#4, 0xE#4].contains f := by decide

section
variable (w : Word)

theorem isSome_decodeFamily8 : (decodeFamily8 w).isSome = family8WellFormed w := by
  rw [decodeFamily8, family8WellFormed, ← fieldF, selector8_eq_contains]
  split <;> simp_all

theorem isSome_decodeFamilyE : (decodeFamilyE w).isSome = familyEWellFormed w := by
  rw [decodeFamilyE, familyEWellFormed, ← fieldNN]
  split <;> simp_all

theorem isSome_decodeFamilyF : (decodeFamilyF w).isSome = familyFWellFormed w := by
  rw [decodeFamilyF, familyFWellFormed, ← fieldNN]
  split <;> simp_all

/-- Family by family; the case `h_k` is family k - 1 of the decoder. -/
theorem isSome_decodeWord : (decodeWord w).isSome = wordWellFormed w := by
  rw [decodeWord, wordWellFormed, ← fieldOp]
  split
  case h_1 hop =>
    rw [hop]
    show _ = family0WellFormed w
    rw [family0WellFormed]
    split_ifs <;> simp_all
  case h_6 hop | h_10 hop =>
    rw [hop]
    show _ = family59WellFormed w
    rw [family59WellFormed, ← fieldF]
    split_ifs <;> simp_all
  case h_9 hop =>
    rw [hop]
    exact isSome_decodeFamily8 w
  case h_15 hop =>
    rw [hop]
    exact isSome_decodeFamilyE w
  case h_16 hop =>
    rw [hop]
    exact isSome_decodeFamilyF w
  case h_17 =>
    exfalso
    generalize fieldOp w = f at *
    revert f
    decide
  all_goals
    next hop =>
    rw [hop]
    rfl

end

/-- Settles O5, family by family. -/
theorem invalidColumnsAreExact : Obligations.InvalidColumnsAreExact := isSome_decodeWord

/-! ### Two bytes (R51) -/

section
variable {hi lo : Byte} (rest : List Byte)

theorem decodeBytes_of_some {i : Instr} (h : decodeWord (wordOfBytes hi lo) = some i) :
    decodeBytes (hi :: lo :: rest) = .instr i rest := by
  rw [decodeBytes, h]

theorem decodeBytes_of_none (h : decodeWord (wordOfBytes hi lo) = none) :
    decodeBytes (hi :: lo :: rest) = .invalidOpcode (wordOfBytes hi lo) rest := by
  rw [decodeBytes, h]

end

theorem wordOfBytes_eq_ofNat (hi lo : Byte) : wordOfBytes hi lo = BitVec.ofNat 16 (hi.toNat * 256 + lo.toNat) := by
  rw [← Machine.wordOfBytes_toNat, BitVec.ofNat_toNat, BitVec.setWidth_eq]

theorem decodeBytes_encodeBytes (i : Instr) (rest : List Byte) : decodeBytes (encodeBytes i ++ rest) = .instr i rest := by
  have hw := Machine.wordOfBytes_highByte_lowByte (encode i)
  exact decodeBytes_of_some rest (hw.symm ▸ decodeWord_encode i)

/-- Settles O6: the two outcomes of the one word, and the bytes of an encoding put together again. -/
theorem decodeConsumesTwoBytes : Obligations.DecodeConsumesTwoBytes := by
  refine ⟨fun hi lo rest => ?_, decodeBytes_encodeBytes⟩
  cases h : decodeWord (wordOfBytes hi lo) with
  | some i => exact .inl ⟨i, decodeBytes_of_some rest h⟩
  | none => exact .inr (wordOfBytes_eq_ofNat hi lo ▸ decodeBytes_of_none rest h)

/-- Settles O1, word by word. -/
theorem specWordsDecode : Obligations.SpecWordsDecode := by
  unfold Obligations.SpecWordsDecode
  decide

end Sys2Proof

/-! The step cycle (30_encoding.md R58 to R63): what a `step` does with the fetched word. -/

namespace Sys2Proof.Machine

open Sys2Proof.Statements

section
variable {s : State}

/-- Where the machine is about to fetch, a step is a RUNNING step with the event taken from the queue. -/
theorem step_of_ready (h : Ready s) : step s = runStep { s with pending := s.pending.tail } := by
  obtain ⟨hrun, hnext⟩ := h
  rw [step_eq_stepEvent s hnext]
  exact stepEvent_running _ hrun

theorem step_decoded {i : Instr} (h : Ready s) (hd : decodeWord s.fetchWord = some i) : step s = exec i (fetched s) :=
  (step_of_ready h).trans (runStep_decoded _ hd)

theorem step_invalid (h : Ready s) (hd : decodeWord s.fetchWord = none) :
    step s = .next { fetched s with events := s.events ++ [⟨.invalidOpcode, s.pc, s.fetchWord⟩] } :=
  (step_of_ready h).trans (runStep_invalid _ hd)

end

/-- Settles O10: a word of no row does not decode. -/
theorem invalidOpcodeOnlyLogs : Obligations.InvalidOpcodeOnlyLogs :=
  fun _ h hrows => step_invalid h (decodeWord_eq_none hrows)

/-- Settles O8, by the step of a machine that is about to fetch. -/
theorem stepRunsDecodedInstruction : Obligations.StepRunsDecodedInstruction := fun _ _ => step_decoded

theorem tableWord_16 {w : Nat} (h : w < 65536) : tableWord 16 w = BitVec.ofNat 16 w :=
  congrArg (BitVec.ofNat 16) (Nat.mod_eq_of_lt h)

/-- The table's two bytes of a word, put together again, decode as the word does. -/
theorem decodeTableWord_eq (nbits w : Nat) : decodeTableWord nbits w = decodeWord (tableWord nbits w) := by
  have hw := wordOfBytes_highByte_lowByte (tableWord nbits w)
  cases hd : decodeWord (tableWord nbits w) with
  | some i => rw [decodeTableWord, decodeBytes_of_some [] (hw.symm ▸ hd)]
  | none => rw [decodeTableWord, decodeBytes_of_none [] (hw.symm ▸ hd)]

theorem withFetchWord_ready (s : State) (nbits w : Nat) : Ready (s.withFetchWord nbits w) := ⟨rfl, rfl⟩

/-- Settles O9: the placed word is the word fetched, by a machine that is about to fetch. -/
theorem placedWordRunsNext : Obligations.PlacedWordRunsNext := by
  intro s w i hlt hd
  rw [← tableWord_16 hlt] at hd
  have hfetch : (s.withFetchWord 16 w).fetchWord = tableWord 16 w := State.fetchWord_placeWord s _
  exact ⟨(decodeTableWord_eq 16 w).trans hd, step_decoded (withFetchWord_ready s 16 w) (hfetch ▸ hd)⟩

end Sys2Proof.Machine

/-! Rows of the opcode table (30_encoding.md R52, R53, R61): a word that fits a row decodes to the row's instruction. -/

namespace Sys2Proof

open Sys2Proof.Statements

section
variable (w : Word)

theorem fieldX_eq_bitsX : fieldX w = bitsX w := Fin.ext (fieldX_val w)

theorem fieldY_eq_bitsY : fieldY w = bitsY w := Fin.ext (fieldY_val w)

theorem fieldNN_eq_bitsNN : fieldNN w = bitsNN w := BitVec.eq_of_toNat_eq (fieldNN_toNat w)

theorem fieldNNN_eq_bitsNNN : fieldNNN w = bitsNNN w := BitVec.eq_of_toNat_eq (fieldNNN_toNat w)

end

section
variable {pattern : Word}

/-- A row decodes as soon as its words are the encodings of the row's instruction. -/
theorem rowDecodes_of_encode {mask : Word} {i : Word → Instr} (h : ∀ w, w &&& mask = pattern → encode (i w) = w) :
    RowDecodes mask pattern i := by
  intro w hw
  have hd := decodeWord_encode (i w)
  rwa [h w hw] at hd

theorem rowDecodes_of_formatNNN {i : Addr12 → Instr} (hi : ∀ nnn, encode (i nnn) = formatNNN (fieldOp pattern) nnn) :
    RowDecodes 0xF000 pattern (fun w => i (bitsNNN w)) := by
  refine rowDecodes_of_encode fun w hw => ?_
  rw [hi, ← fieldNNN_eq_bitsNNN]
  exact formatNNN_of_fields (fieldOp_of_mask hw rfl)

theorem rowDecodes_of_formatXNN {i : Reg → Byte → Instr}
    (hi : ∀ x nn, encode (i x nn) = formatXNN (fieldOp pattern) x nn) :
    RowDecodes 0xF000 pattern (fun w => i (bitsX w) (bitsNN w)) := by
  refine rowDecodes_of_encode fun w hw => ?_
  rw [hi, ← fieldX_eq_bitsX, ← fieldNN_eq_bitsNN]
  exact formatXNN_of_fields (fieldOp_of_mask hw rfl) rfl

theorem rowDecodes_of_formatXYN {i : Reg → Reg → Instr}
    (hi : ∀ x y, encode (i x y) = formatXYN (fieldOp pattern) x y (fieldF pattern)) :
    RowDecodes 0xF00F pattern (fun w => i (bitsX w) (bitsY w)) := by
  refine rowDecodes_of_encode fun w hw => ?_
  rw [hi, ← fieldX_eq_bitsX, ← fieldY_eq_bitsY]
  exact formatXYN_of_fields (fieldOp_of_mask hw rfl) (fieldF_of_mask hw rfl)

end

/-- A row whose mask keeps every bit is one word. -/
theorem rowDecodes_of_word {i : Instr} : RowDecodes 0xFFFF (encode i) (fun _ => i) :=
  rowDecodes_of_encode fun w hw => hw.symm.trans (BitVec.and_allOnes (x := w))

/-- The word of a call as a number, as fault entry logs it (60_exceptions.md R116). -/
theorem encode_op2NNN (nnn : Addr12) : encode (.op2NNN nnn) = BitVec.ofNat 16 (0x2000 + nnn.toNat) := by
  apply BitVec.eq_of_toNat_eq
  rw [encode, formatNNN_toNat, BitVec.toNat_ofNat, Nat.mod_eq_of_lt (by omega)]
  rfl

end Sys2Proof

/-! Control flow (40_control_flow.md R68 to R77): calls and returns, skips and jumps. -/

namespace Sys2Proof.Machine

open Sys2Proof.Statements

/-! ### Calls and returns (R69, R71, R77) -/

/-- Settles O14: the call with room on the stack, the call without, and the row. -/
theorem callPushesReturnAddress : Obligations.CallPushesReturnAddress := by
  refine ⟨fun nnn s h => ?_, fun nnn s h => ?_, rowDecodes_of_formatNNN fun _ => rfl⟩
  · rw [exec_op2NNN_pushes s nnn h, zext16_eq]
  · rw [exec_op2NNN_overflows s nnn (by simp [h]), encode_op2NNN]
    rfl

/-- Settles O15: the return with an entry to pop, the return on the empty stack, and the row's one word. -/
theorem returnPopsReturnAddress : Obligations.ReturnPopsReturnAddress :=
  ⟨exec_op00EE_pops, fun s h => exec_op00EE_underflows s (by simp [h]), rowDecodes_of_word (i := .op00EE)⟩

/-- Settles O16: the entry popped is the one pushed, and the push is above the live entries. -/
theorem returnUndoesCall : Obligations.ReturnUndoesCall := by
  intro s nnn a h
  have hpopped : (s.stack.set s.depth.val s.pc)[s.depth.val] = s.pc := Vector.getElem_set_self h
  have hlive : ∀ k : Fin 16, k.val < s.depth.val → (s.stack.set s.depth.val s.pc)[k] = s.stack[k] :=
    fun k hk => Vector.getElem_set_ne h k.isLt hk.ne'
  refine ⟨_, exec_op2NNN_pushes s nnn h, _, exec_op00EE_pops _ (Nat.succ_pos _), ?_, hlive⟩
  simp only [Nat.add_sub_cancel, hpopped]

/-! ### Skips (R68, R72 to R75) -/

section
variable (s : State) (a b : Byte)

theorem State.skipIf_beq : s.skipIf (a == b) = { s with pc := if a = b then s.pc + 2 else s.pc } := by
  simp only [State.skipIf, beq_iff_eq]

theorem State.skipIf_bne : s.skipIf (a != b) = { s with pc := if a = b then s.pc else s.pc + 2 } := by
  simp only [State.skipIf, bne_iff_ne, ne_eq, ite_not]

end

/-- Settles O18: the skip primitive on the register and the immediate, and the two rows. -/
theorem skipsOnImmediate : Obligations.SkipsOnImmediate :=
  ⟨fun x nn s => congrArg _ (s.skipIf_beq s.v[x] nn), rowDecodes_of_formatXNN fun _ _ => rfl,
    fun x nn s => congrArg _ (s.skipIf_bne s.v[x] nn), rowDecodes_of_formatXNN fun _ _ => rfl⟩

/-- Settles O19: the skip primitive on the two registers, and the two rows. -/
theorem skipsOnRegisters : Obligations.SkipsOnRegisters :=
  ⟨fun x y s => congrArg _ (s.skipIf_beq s.v[x] s.v[y]), rowDecodes_of_formatXYN fun _ _ => rfl,
    fun x y s => congrArg _ (s.skipIf_bne s.v[x] s.v[y]), rowDecodes_of_formatXYN fun _ _ => rfl⟩

/-! ### Jumps (R70, R76) -/

/-- Settles O13: both targets as numbers, and the two rows. -/
theorem jumpTargets : Obligations.JumpTargets := by
  refine ⟨fun nnn s => ?_, rowDecodes_of_formatNNN fun _ => rfl, fun nnn s => ?_, rowDecodes_of_formatNNN fun _ => rfl⟩
  · rw [exec_op1NNN, zext16_eq, State.jump]
  · rw [exec_opBNNN, zext16_eq, byteWord_eq, ← BitVec.ofNat_add, State.jump, State.readV_eq]

end Sys2Proof.Machine

/-! Register loads and the ALU (41_alu.md): the loads and the operations without a flag, and the five that set VF. -/

namespace Sys2Proof.Machine

open Sys2Proof.Statements

/-! ### Loads and operations without a flag (R81 to R86, R92) -/

/-- Settles O20: the addition's result is the sum as a number, and the two rows. -/
theorem immediateLoadAndAdd : Obligations.ImmediateLoadAndAdd :=
  ⟨fun x nn s => exec_op6XNN s x nn, rowDecodes_of_formatXNN fun _ _ => rfl,
    fun x nn s => exec_op7XNN s x nn, rowDecodes_of_formatXNN fun _ _ => rfl⟩

/-- Settles O21: each byte operation is its Boolean operation on every bit, and the four rows. -/
theorem copyAndBitwise : Obligations.CopyAndBitwise :=
  ⟨fun x y s => exec_op8XY0 s x y, rowDecodes_of_formatXYN fun _ _ => rfl,
    fun x y s => ⟨_, exec_op8XY1 s x y, fun _ => BitVec.getLsbD_or⟩, rowDecodes_of_formatXYN fun _ _ => rfl,
    fun x y s => ⟨_, exec_op8XY2 s x y, fun _ => BitVec.getLsbD_and⟩, rowDecodes_of_formatXYN fun _ _ => rfl,
    fun x y s => ⟨_, exec_op8XY3 s x y, fun _ => BitVec.getLsbD_xor⟩, rowDecodes_of_formatXYN fun _ _ => rfl⟩

/-- A byte the host presents is the byte drawn (R92). -/
theorem State.rndByte_of_some {s : State} {b : Byte} (h : s.rnd = some b) : s.rndByte = b := by
  rw [State.rndByte, h, Option.getD_some]

/-- Settles O25: the byte is the one drawn in this step. -/
theorem randomByteMasked : Obligations.RandomByteMasked :=
  ⟨fun x nn s => ⟨s.rndByte, exec_opCXNN s x nn, fun _ => State.rndByte_of_some⟩, rowDecodes_of_formatXNN fun _ _ => rfl⟩

/-! ### Write-back (R80) -/

theorem flagByte_decide (p : Prop) [Decidable p] : flagByte (decide p) = bit p := by
  simp only [flagByte, bit, decide_eq_true_eq]

section
variable (s : State) (x : Reg)

theorem writesFlagged_writeBack (o : AluOut) :
    WritesFlagged s (s.writeBack x o) x o.result (flagByte o.flag) := by
  refine ⟨fun k hx hVF => ?_, fun hx => ⟨?_, ?_⟩, fun hx horder => ?_, fun hx horder => ?_, s.writeBack_frame x o⟩ <;>
    rw [State.writeBack_get]
  · rw [if_neg hVF, if_neg hx]
  · rw [if_neg hx, if_pos rfl]
  · rw [if_pos rfl, if_neg fun h => hx h.1]
  · rw [if_pos rfl, if_pos ⟨hx, horder⟩]
  · rw [if_pos rfl, if_neg (by simp [horder])]

/-- An instruction that writes back an operation's result `r`, and as its flag whether `p` holds. -/
theorem exec_writesFlagged {i : Instr} {o : AluOut} {r : Byte} {p : Prop} [Decidable p]
    (hexec : exec i s = .next (s.writeBack x o)) (hr : o.result = r) (hf : o.flag = decide p) :
    ∃ t, exec i s = .next t ∧ WritesFlagged s t x r (bit p) := by
  have h := writesFlagged_writeBack s x o
  rw [hr, hf, flagByte_decide] at h
  exact ⟨_, hexec, h⟩

end

/-! ### The operations as arithmetic on numbers (R79) -/

section
variable (a b : Byte)

/-- The wrapped difference is the integer difference narrowed. -/
theorem subNoBorrow_result_eq_ofInt : (subNoBorrow a b).result = BitVec.ofInt 8 ((a.toNat : Int) - b.toNat) := by
  rw [subNoBorrow_result]
  apply BitVec.eq_of_toNat_eq
  rw [BitVec.toNat_sub, BitVec.toNat_ofInt]
  omega

theorem shiftRight_result : (shiftRight a).result = BitVec.ofNat 8 (a.toNat / 2) := by
  apply BitVec.eq_of_toNat_eq
  rw [shiftRight, BitVec.toNat_ushiftRight, Nat.shiftRight_eq_div_pow, BitVec.toNat_ofNat]
  omega

theorem shiftRight_flag : (shiftRight a).flag = decide (a.toNat % 2 = 1) := Nat.testBit_zero a.toNat

theorem shiftLeft_result : (shiftLeft a).result = BitVec.ofNat 8 (a.toNat * 2 % 256) := by
  apply BitVec.eq_of_toNat_eq
  rw [shiftLeft, BitVec.toNat_shiftLeft, Nat.shiftLeft_eq, BitVec.toNat_ofNat]
  exact (Nat.mod_mod ..).symm

theorem shiftLeft_flag : (shiftLeft a).flag = decide (a.toNat ≥ 128) := BitVec.getLsbD_last a

end

/-- The register shifted, under either value of `SHIFT_SOURCE` (R89, R91). -/
theorem shifted_eq (s : State) (x y : Reg) : shifted s x y = (s.shiftSource x y).toNat := by
  rw [shifted, State.shiftSource]
  cases s.params.shiftSource <;> rfl

/-! ### The five operations that set VF (R87 to R91) -/

/-- Settles O22: the sum and the carry written back, and the row. -/
theorem addSetsCarry : Obligations.AddSetsCarry :=
  ⟨fun x y s => exec_writesFlagged s x (exec_op8XY4 s x y) rfl (addCarry_flag ..), rowDecodes_of_formatXYN fun _ _ => rfl⟩

/-- Settles O23: either difference and its no-borrow flag written back, and the two rows. -/
theorem subtractSetsNoBorrow : Obligations.SubtractSetsNoBorrow :=
  ⟨fun x y s =>
      exec_writesFlagged s x (exec_op8XY5 s x y) (subNoBorrow_result_eq_ofInt ..) (subNoBorrow_flag ..),
    rowDecodes_of_formatXYN fun _ _ => rfl,
    fun x y s =>
      exec_writesFlagged s x (exec_op8XY7 s x y) (subNoBorrow_result_eq_ofInt ..) (subNoBorrow_flag ..),
    rowDecodes_of_formatXYN fun _ _ => rfl⟩

/-- Settles O24: the shift source, shifted either way, and the bit shifted out written back, and the two rows. -/
theorem shiftsSetBitShiftedOut : Obligations.ShiftsSetBitShiftedOut := by
  refine ⟨fun x y s => ?_, rowDecodes_of_formatXYN fun _ _ => rfl,
    fun x y s => ?_, rowDecodes_of_formatXYN fun _ _ => rfl⟩ <;> simp only [shifted_eq]
  · exact exec_writesFlagged s x (exec_op8XY6 s x y) (shiftRight_result _) (shiftRight_flag _)
  · exact exec_writesFlagged s x (exec_op8XYE s x y) (shiftLeft_result _) (shiftLeft_flag _)

end Sys2Proof.Machine

/-! The index register and memory transfers (42_index_memory.md R93 to R99). -/

namespace Sys2Proof

open Sys2Proof.Statements

/-- The rows of families E and F: the mask keeps the selector byte, and X alone is an operand (R53, R61). -/
theorem rowDecodes_of_formatXFF {pattern : Word} {i : Reg → Instr}
    (hi : ∀ x, encode (i x) = formatXNN (fieldOp pattern) x (fieldNN pattern)) :
    RowDecodes 0xF0FF pattern (fun w => i (bitsX w)) := by
  refine rowDecodes_of_encode fun w hw => ?_
  rw [hi, ← fieldX_eq_bitsX]
  exact formatXNN_of_fields (fieldOp_of_mask hw rfl) (fieldNN_of_mask hw rfl)

end Sys2Proof

namespace Sys2Proof.Machine

open Sys2Proof.Statements

/-! ### The writers of I (R93 to R95) -/

/-- Settles O26: the immediate and the glyph address as numbers, the sum as it stands, and the three rows. -/
theorem indexWriters : Obligations.IndexWriters := by
  refine ⟨fun nnn s => ?_, rowDecodes_of_formatNNN fun _ => rfl, fun x s => exec_opFX1E s x,
    rowDecodes_of_formatXFF fun _ => rfl, fun x s => ?_, rowDecodes_of_formatXFF fun _ => rfl⟩
  · rw [exec_opANNN, zext16_eq]
  · rw [exec_opFX29, State.fontAddr_eq]

/-! ### The decimal digits (R96) -/

section
variable (b : Byte)

theorem hundreds_toNat : (hundreds b).toNat = b.toNat / 100 := by
  rw [hundreds, BitVec.toNat_ofNat]
  omega

theorem tens_toNat : (tens b).toNat = b.toNat / 10 % 10 := by
  rw [tens, BitVec.toNat_ofNat]
  omega

theorem ones_toNat : (ones b).toNat = b.toNat % 10 := by
  rw [ones, BitVec.toNat_ofNat]
  omega

end

section
variable (s : State)

/-- I + j and I + k are two bytes of memory while j and k are less than its size apart (R99). -/
theorem atIndex_ne {j k : Nat} (hlt : j < k) (hk : k < j + 4096) : atIndex s j ≠ atIndex s k := by
  unfold atIndex
  omega

/-- FX33 as three writes to memory, at its masked addresses (R96, R99). -/
theorem exec_opFX33_writes (x : Reg) : exec (.opFX33 x) s = .next { s with
    mem := ((s.mem.write (atIndex s 0) (hundreds s.v[x])).write (atIndex s 1) (tens s.v[x])).write (atIndex s 2)
      (ones s.v[x]) } := by
  have haddr : ∀ k, maskAddr (s.indexAddr k) = atIndex s k := maskAddr_indexAddr s
  simp only [← haddr]
  exact exec_opFX33 s x

end

/-- Settles O27: no later digit is stored over an earlier one, and the row. -/
theorem decimalDigitsStored : Obligations.DecimalDigitsStored := by
  refine ⟨fun x s => ⟨_, exec_opFX33_writes s x, ?_, ?_, ?_, fun a h0 h1 h2 => ?_, rfl⟩,
    rowDecodes_of_formatXFF fun _ => rfl⟩
  · have h01 : atIndex s 0 ≠ atIndex s 1 := atIndex_ne s (by decide) (by decide)
    have h02 : atIndex s 0 ≠ atIndex s 2 := atIndex_ne s (by decide) (by decide)
    rw [Memory.read_write_ne _ _ h02, Memory.read_write_ne _ _ h01, Memory.read_write_same, hundreds_toNat]
  · have h12 : atIndex s 1 ≠ atIndex s 2 := atIndex_ne s (by decide) (by decide)
    rw [Memory.read_write_ne _ _ h12, Memory.read_write_same, tens_toNat]
  · rw [Memory.read_write_same, ones_toNat]
  · rw [Memory.read_write_ne _ _ h2, Memory.read_write_ne _ _ h1, Memory.read_write_ne _ _ h0]

/-! ### The block copies (R97, R98) -/

/-- Settles O28: each register's byte, the bytes of no register, the frame, and the row. -/
theorem registersStored : Obligations.RegistersStored :=
  ⟨fun x s => ⟨_, exec_opFX55 s x, s.storeRegs_stored x, s.storeRegs_other x, s.storeRegs_frame x⟩,
    rowDecodes_of_formatXFF fun _ => rfl⟩

/-- Settles O29: each register after the loop, the frame, and the row. -/
theorem registersLoaded : Obligations.RegistersLoaded :=
  ⟨fun x s => ⟨_, exec_opFX65 s x, s.loadRegs_get x, s.loadRegs_frame x⟩, rowDecodes_of_formatXFF fun _ => rfl⟩

end Sys2Proof.Machine

/-! The display (43_display.md R100 to R105): the clear, and the drawing of a sprite as the sprite bit over each pixel. -/

namespace Sys2Proof

open Sys2Proof.Statements

/-- The row of DXYN: no selector, every nibble below the family is an operand (R53, R61). -/
theorem rowDecodes_opDXYN : RowDecodes 0xF000 0xD000 (fun w => .opDXYN (bitsX w) (bitsY w) (bitsN w)) := by
  refine rowDecodes_of_encode fun w hw => ?_
  have hn : bitsN w = fieldN w := Fin.ext (fieldN_val w).symm
  rw [hn, ← fieldX_eq_bitsX, ← fieldY_eq_bitsY]
  exact formatXYN_of_fields (fieldOp_of_mask hw rfl) rfl

end Sys2Proof

namespace Sys2Proof.Machine

open Sys2Proof.Statements

/-- Settles O32: every pixel of the blank display, and the row's one word. -/
theorem clearBlanksDisplay : Obligations.ClearBlanksDisplay :=
  ⟨fun s => ⟨_, exec_op00E0 s, Framebuffer.pixel_blank, rfl⟩, rowDecodes_of_word (i := .op00E0)⟩

/-! ### The sprite bit over a pixel (R100, R101, R103) -/

/-- On an axis that wraps at m, the position at offset b from q is the one whose distance from q is b (R100). -/
theorem eq_ofNat_add_iff {m : Nat} [NeZero m] (p : Fin m) {q b : Nat} (hq : q < m) (hb : b < m) :
    p = Fin.ofNat m (q + b) ↔ (p.val + m - q) % m = b := by
  rw [Fin.ext_iff, Fin.val_ofNat, Nat.add_sub_assoc hq.le]
  constructor
  · intro hp
    have hround : q + b + (m - q) = b + m := by omega
    rw [hp, Nat.mod_add_mod, hround, Nat.add_mod_right, Nat.mod_eq_of_lt hb]
  · rintro rfl
    have hround : q + (p.val + (m - q)) = p.val + m := by omega
    rw [Nat.add_mod_mod, hround, Nat.add_mod_right, Nat.mod_eq_of_lt p.isLt]

section
variable (s : State) (x y : Reg) (n : Fin 16)

theorem State.spriteRows_length : (s.spriteRows n).length = n.val := by
  rw [State.spriteRows, List.length_map, List.length_range]

theorem State.spriteRows_getElem {r : Nat} (h : r < (s.spriteRows n).length) :
    (s.spriteRows n)[r] = s.mem.read (atIndex s r) := by
  simp only [State.spriteRows, List.getElem_map, List.getElem_range, State.readByte, maskAddr_indexAddr, atIndex]

theorem mem_spritePixels_iff_spriteBit (px : Fin 64) (py : Fin 32) :
    (px, py) ∈ spritePixels (s.v[x].toNat % 64) (s.v[y].toNat % 32) (s.spriteRows n) ↔
      spriteBit s x y n px py = true := by
  have hx : s.v[x].toNat % 64 < 64 := Nat.mod_lt _ (by decide)
  have hy : s.v[y].toNat % 32 < 32 := Nat.mod_lt _ (by decide)
  simp only [mem_spritePixels, spriteBit, State.spriteRows_getElem, State.spriteRows_length, Prod.mk.injEq,
    Bool.and_eq_true, decide_eq_true_eq]
  constructor
  · rintro ⟨r, hr, b, hb, hbit, hpx, hpy⟩
    rw [eq_ofNat_add_iff px hx (by omega)] at hpx
    rw [eq_ofNat_add_iff py hy (by omega)] at hpy
    rw [hpx, hpy]
    exact ⟨⟨hb, hr⟩, hbit⟩
  · rintro ⟨⟨hb, hr⟩, hbit⟩
    exact ⟨_, hr, _, hb, hbit, (eq_ofNat_add_iff px hx (by omega)).2 rfl, (eq_ofNat_add_iff py hy (by omega)).2 rfl⟩

/-! ### The state DXYN leaves (R103, R104) -/

/-- The state after a drawing. -/
def State.drawn : State := { s with fb := (s.sprite x y n).fb }.writeV VF (flagByte (s.sprite x y n).collided)

theorem exec_opDXYN_drawn : exec (.opDXYN x y n) s = .next (s.drawn x y n) := exec_opDXYN s x y n

theorem State.drawn_pixel (px : Fin 64) (py : Fin 32) :
    (s.drawn x y n).fb[py][px] = xor s.fb[py][px] (spriteBit s x y n px py) := by
  have hpixel := (s.sprite_spec x y n).1 px py
  simp only [mem_spritePixels_iff_spriteBit, Bool.decide_eq_true] at hpixel
  exact hpixel

theorem State.sprite_collided_iff : (s.sprite x y n).collided = true ↔ Collides s x y n := by
  rw [(s.sprite_spec x y n).2, Prod.exists]
  simp only [mem_spritePixels_iff_spriteBit]
  rfl

theorem State.drawn_v_of_collides (h : Collides s x y n) : (s.drawn x y n).v = s.v.set 15 1 := by
  rw [State.drawn, (s.sprite_collided_iff x y n).2 h]
  rfl

theorem State.drawn_v_of_not_collides (h : ¬ Collides s x y n) : (s.drawn x y n).v = s.v.set 15 0 := by
  rw [State.drawn, Bool.eq_false_of_not_eq_true (mt (s.sprite_collided_iff x y n).1 h)]
  rfl

/-- A sprite of no rows draws nothing (R103). -/
theorem State.sprite_zero : s.sprite x y 0 = { fb := s.fb, collided := false } := rfl

end

/-- Settles O33: each pixel and VF by the sprite bits, the sprite of no rows, and the row. -/
theorem drawXorsSprite : Obligations.DrawXorsSprite := by
  refine ⟨fun x y n s => ⟨_, exec_opDXYN_drawn s x y n, s.drawn_pixel x y n, s.drawn_v_of_collides x y n,
    s.drawn_v_of_not_collides x y n, rfl⟩, fun x y s => ?_, rowDecodes_opDXYN⟩
  rw [exec_opDXYN, State.sprite_zero]
  rfl

/-! ### The same sprite drawn again (R103, 90_conflicts.md C5) -/

section
variable (s : State) (x y : Reg) (n : Fin 16)

theorem State.drawn_VF_iff : (s.drawn x y n).v[(15 : Reg)] = 1 ↔ Collides s x y n := by
  by_cases h : Collides s x y n
  · simp [s.drawn_v_of_collides x y n h, h]
  · simp [s.drawn_v_of_not_collides x y n h, h]

theorem State.drawn_get_of_ne {r : Reg} (hr : r ≠ 15) : (s.drawn x y n).v[r] = s.v[r] :=
  (State.writeV_get _ VF r _).trans (if_neg hr)

variable {x y}

/-- A drawing leaves the sprite where it was, as long as VF is neither coordinate. -/
theorem spriteBit_drawn (hx : x ≠ 15) (hy : y ≠ 15) (px : Fin 64) (py : Fin 32) :
    spriteBit (s.drawn x y n) x y n px py = spriteBit s x y n px py := by
  rw [spriteBit, s.drawn_get_of_ne x y n hx, s.drawn_get_of_ne x y n hy]
  rfl

/-- The second drawing collides where the first drew a 1 bit on a pixel it turned on. -/
theorem collides_drawn_iff (hx : x ≠ 15) (hy : y ≠ 15) : Collides (s.drawn x y n) x y n ↔
    ∃ (px : Fin 64) (py : Fin 32), spriteBit s x y n px py = true ∧ s.fb[py][px] = false := by
  simp only [Collides, spriteBit_drawn s n hx hy, State.drawn_pixel]
  refine exists_congr fun px => exists_congr fun py => and_congr_right fun hbit => ?_
  rw [hbit, Bool.xor_true, Bool.not_eq_true']

end

/-- Settles O34: the same bits XORed twice cancel at each pixel, and VF is the second drawing's collision. -/
theorem drawTwiceRestoresDisplay : Obligations.DrawTwiceRestoresDisplay := by
  intro x y n s hx hy
  refine ⟨_, _, exec_opDXYN_drawn s x y n, exec_opDXYN_drawn _ x y n, ?_, ?_⟩
  · refine Framebuffer.ext_pixel fun px py => ?_
    show ((s.drawn x y n).drawn x y n).fb[py][px] = s.fb[py][px]
    rw [State.drawn_pixel, spriteBit_drawn s n hx hy, State.drawn_pixel, Bool.xor_assoc, Bool.xor_self, Bool.xor_false]
  · rw [State.drawn_VF_iff, collides_drawn_iff s n hx hy]

end Sys2Proof.Machine

/-! The keypad and the timers (44_keypad_timers.md R106 to R113): the key skips, the wait for a key, and the timer registers. -/

namespace Sys2Proof.Machine

open Sys2Proof.Statements

/-! ### The timers (R111 to R113) -/

/-- Settles O39: the read, the write, and the two rows. -/
theorem delayTimerReadAndSet : Obligations.DelayTimerReadAndSet :=
  ⟨fun x s => exec_opFX07 s x, rowDecodes_of_formatXFF fun _ => rfl,
    fun x s => exec_opFX15 s x, rowDecodes_of_formatXFF fun _ => rfl⟩

/-- Settles O40: the new value of ST with its beep, and the row. -/
theorem soundTimerSet : Obligations.SoundTimerSet :=
  ⟨fun x s => exec_opFX18 s x, rowDecodes_of_formatXFF fun _ => rfl⟩

/-! ### The key sample (R28, R138) -/

/-- A level the host drives is the level sampled (R28). -/
theorem State.keySample_of_some {s : State} {k : Keys} (h : s.keys = some k) : s.keySample = k := by
  rw [State.keySample, h, Option.getD_some]

/-- Settles O37: the baseline is the keys sampled in this step, and the row. -/
theorem waitForKeyStarts : Obligations.WaitForKeyStarts :=
  ⟨fun x s => ⟨s.keySample, fun _ => State.keySample_of_some, exec_opFX0A s x⟩, rowDecodes_of_formatXFF fun _ => rfl⟩

/-! ### The key skips (R106 to R108) -/

section
variable (s : State)

theorem State.skipIf_not (b : Bool) : s.skipIf (!b) = { s with pc := if b then s.pc else s.pc + 2 } := by
  cases b <;> rfl

variable {x : Reg}

theorem State.skipOnKey_pressed (h : s.v[x].toNat ≤ 15) : s.skipOnKey x true =
    { s with pc := if s.keySample.getLsbD s.v[x].toNat then s.pc + 2 else s.pc } := by
  rw [State.skipOnKey_of_le s true (Nat.lt_succ_of_le h), beq_true, State.skipIf]

theorem State.skipOnKey_released (h : s.v[x].toNat ≤ 15) : s.skipOnKey x false =
    { s with pc := if s.keySample.getLsbD s.v[x].toNat then s.pc else s.pc + 2 } := by
  rw [State.skipOnKey_of_le s false (Nat.lt_succ_of_le h), beq_false, State.skipIf_not]

end

/-- Settles O35: both skips on the one sample, the one record above 15, and the two rows. -/
theorem keySkips : Obligations.KeySkips := by
  refine ⟨fun x s h => ⟨s.keySample, fun _ => State.keySample_of_some, ?_, ?_⟩, fun x s h => ?_,
    rowDecodes_of_formatXFF fun _ => rfl, rowDecodes_of_formatXFF fun _ => rfl⟩
  · rw [exec_opEX9E, State.skipOnKey_pressed s h]
  · rw [exec_opEXA1, State.skipOnKey_released s h]
  · have hlogs : ∀ wanted, s.skipOnKey x wanted = s.log .keyIndexRange (s.pc - 2) (BitVec.ofNat 16 s.v[x].toNat) :=
      fun wanted => State.skipOnKey_of_gt s wanted (not_lt.2 h)
    exact ⟨congrArg _ (hlogs true), congrArg _ (hlogs false)⟩

/-! ### The waiting step (R110) -/

section
variable {k prev : Keys} {j : Fin 16}

/-- A key is new where it is down in the sample and was up at the baseline (R110). -/
theorem getLsbD_newKeys : (k &&& ~~~prev).getLsbD j.val = (k.getLsbD j.val && !prev.getLsbD j.val) := by
  rw [BitVec.getLsbD_and, BitVec.getLsbD_not, decide_eq_true j.isLt, Bool.true_and]

theorem lowestKey_zero : lowestKey 0 = none := by decide

theorem lowestKey_of_ne_zero (h : k ≠ 0) : ∃ j, lowestKey k = some j :=
  Option.ne_none_iff_exists'.1 (mt lowestKey_none h)

/-- The lowest of the new keys: it went down, and no lower key did. -/
theorem lowestKey_newKeys (h : lowestKey (k &&& ~~~prev) = some j) :
    (k.getLsbD j.val = true ∧ prev.getLsbD j.val = false) ∧
      ∀ l : Fin 16, l < j → k.getLsbD l.val = true → prev.getLsbD l.val = true := by
  obtain ⟨hnew, hlower⟩ := lowestKey_some h
  rw [getLsbD_newKeys, Bool.and_eq_true, Bool.not_eq_true'] at hnew
  refine ⟨hnew, fun l hl hdown => ?_⟩
  have hold := hlower l hl
  rwa [getLsbD_newKeys, hdown, Bool.true_and, Bool.not_eq_false'] at hold

end

/-- The state a waiting step works on: its event taken from the queue, the step and its sample counted (log entries 5, 6
and 10). -/
def State.polled (s : State) : State := { s with pending := s.pending.tail }.sampleInputs

theorem step_waiting {s : State} (hs : s.status = .waiting) (he : nextEvent s = .step) : step s = .next s.polled.waitStep := by
  rw [step_eq_stepEvent s he]
  exact stepEvent_waiting _ hs

/-- Settles O38: with no new key the step takes the baseline only; otherwise the lowest new key ends the wait. -/
theorem waitingStepTakesLowestNewKey : Obligations.WaitingStepTakesLowestNewKey := by
  intro s hs he
  refine ⟨s.polled.keySample, fun _ hk => State.keySample_of_some hk, fun hnone => ?_, fun hsome => ?_⟩
  · have hlow : lowestKey (s.polled.keySample &&& ~~~s.polled.keyPrev) = none :=
      (congrArg lowestKey hnone).trans lowestKey_zero
    rw [step_waiting hs he, State.waitStep_none s.polled hlow]
    rfl
  · obtain ⟨j, hlow⟩ := lowestKey_of_ne_zero hsome
    obtain ⟨hnew, hlower⟩ := lowestKey_newKeys hlow
    refine ⟨j, hnew, hlower, ?_⟩
    rw [step_waiting hs he, State.waitStep_some s.polled hlow]
    rfl

end Sys2Proof.Machine

/-! Faults, halting and the host's events (60_exceptions.md R115 to R129): fault entry seen from the step, the timers' tick, the
beep, the event stream, and what a HALTED machine keeps. -/

namespace Sys2Proof.Machine

open Sys2Proof.Statements

/-! ### Completion and fault entry (R116, R121, R129) -/

/-- Settles O11: every instruction has one of the effects, and each is a next state. -/
theorem everyInstructionCompletes : Obligations.EveryInstructionCompletes := by
  intro i s
  obtain ⟨t, ht, _⟩ := exec_effect s i
  exact ⟨t, ht⟩

section
variable {s : State} {i : Instr}

/-- An executing instruction's own address is where it was fetched (10_state.md R17). -/
theorem fetched_instrAddr : (fetched s).pc - 2 = s.pc := BitVec.add_sub_cancel s.pc 2

/-- A step whose instruction faults enters HALTED with the instruction's own address and its fetched word (R116). -/
theorem step_of_raise {f : Fault} (h : Ready s) (hd : decodeWord s.fetchWord = some i)
    (hx : exec i (fetched s) = .next ((fetched s).raise f (encode i))) : step s = .next { fetched s with
      status := .halted, faultCause := f.cause, faultAddr := s.pc,
      events := s.events ++ [⟨f.event, s.pc, s.fetchWord⟩] } := by
  have hpc : (fetched s).instrAddr = s.pc := fetched_instrAddr
  rw [step_decoded h hd, hx, encode_of_decodeWord hd, State.raise, hpc]
  rfl

/-- A step whose key skip has a key index above 15 only logs, with the instruction's own address (R121). -/
theorem step_of_keyIndexRange {x : Reg} {wanted : Bool} (h : Ready s) (hd : decodeWord s.fetchWord = some i)
    (hx : exec i (fetched s) = .next ((fetched s).skipOnKey x wanted)) (hrange : s.v[x].toNat > 15) :
    step s = .next { fetched s with
      events := s.events ++ [⟨.keyIndexRange, s.pc, BitVec.ofNat 16 s.v[x].toNat⟩] } := by
  rw [step_decoded h hd, hx, State.skipOnKey_of_gt (fetched s) wanted (not_lt.2 hrange), fetched_instrAddr]
  rfl

end

/-- Settles O17: the two rows, and the fault each instruction raises. -/
theorem stackFaultEntry : Obligations.StackFaultEntry := by
  obtain ⟨_, _, hcall⟩ := callPushesReturnAddress
  refine ⟨fun s h hw hdepth => ?_, fun s h hw hdepth => ?_⟩
  · have hfull : ¬ (fetched s).depth.val < 16 := by simp [fetched, hdepth]
    exact step_of_raise h (hcall _ hw) (exec_op2NNN_overflows _ _ hfull)
  · have hempty : ¬ 0 < (fetched s).depth.val := by simp [fetched, hdepth]
    have hd : decodeWord s.fetchWord = some .op00EE := by rw [hw]; rfl
    exact step_of_raise h hd (exec_op00EE_underflows _ hempty)

/-- Settles O36: the two rows, and the one record of either key skip. -/
theorem keyIndexOutOfRangeOnlyLogs : Obligations.KeyIndexOutOfRangeOnlyLogs := by
  obtain ⟨_, _, hpressed, hreleased⟩ := keySkips
  rintro s h (hw | hw) hrange
  · exact step_of_keyIndexRange h (hpressed _ hw) (exec_opEX9E _ _) hrange
  · exact step_of_keyIndexRange h (hreleased _ hw) (exec_opEXA1 _ _) hrange

/-! ### Ticks (R126) -/

/-- A timer after a tick: down by 1, clamped at 0. -/
def countDown (b : Byte) : Byte := if b = 0 then 0 else b - 1

theorem countDown_toNat (b : Byte) : (countDown b).toNat = b.toNat - 1 := by
  rw [countDown]
  split
  · next h => rw [h]; rfl
  · next h => bv_omega

/-- A timer reaches 0 in a tick exactly from 1. -/
theorem countDown_reaches_zero_iff (b : Byte) : (b ≠ 0 ∧ countDown b = 0) ↔ b.toNat = 1 := by
  have hnat := countDown_toNat b
  bv_omega

/-- A tick that is not HALTED counts both timers down; ST changes with its beep, and not at all from 0. -/
theorem State.tick_eq_setSound {s : State} (h : s.status ≠ .halted) :
    s.tick = { s with dt := countDown s.dt }.setSound (countDown s.st) := by
  rw [State.tick_of_ne s h]
  split
  · next hst => simp [State.setSound, countDown, hst]
  · next hst => rw [countDown, countDown, if_neg hst]

theorem step_tick_halted {s : State} (rest : List HostEvent) (h : s.status = .halted) :
    step { s with pending := .tick :: rest } = .next { s with pending := rest } :=
  congrArg Host.Outcome.next (State.tick_halted { s with pending := rest } h)

/-- Settles O41: the timers counted down, the beep exactly from ST = 1, and the HALTED tick. -/
theorem tickDecrementsTimers : Obligations.TickDecrementsTimers := by
  refine ⟨fun s rest h => ⟨State.tick { s with pending := rest }, rfl, ?_⟩, fun s rest => step_tick_halted rest⟩
  rw [State.tick_eq_setSound (s := { s with pending := rest }) h]
  refine ⟨countDown_toNat s.dt, countDown_toNat s.st, ?_, rfl⟩
  simp only [State.setSound_beeps, countDown_reaches_zero_iff]
  split <;> rfl

/-! ### What the next event makes of a state (10_state.md R33, 30_encoding.md R58) -/

/-- The answers of a host event with a next state, by STATUS where it decides (R58, R117, R124). -/
inductive EventEffect (s : State) : HostEvent → State → Prop
  /-- a HALTED step: only noted as issued -/
  | noted (hs : s.status = .halted) : EventEffect s .step s.markStepped
  /-- a WAITING step -/
  | polled (hs : s.status = .waiting) : EventEffect s .step s.sampleInputs.waitStep
  /-- a RUNNING step with an instruction -/
  | executed {t : State} (hs : s.status = .running) (i : Instr) (hx : exec i s.executing = .next t) :
      EventEffect s .step t
  /-- a RUNNING step with an invalid opcode -/
  | invalid (hs : s.status = .running) :
      EventEffect s .step (s.executing.log .invalidOpcode s.executing.instrAddr s.fetchWord)
  /-- a HALTED machine's tick or cancel: nothing -/
  | frozen {e : HostEvent} (he : e = .tick ∨ e = .cancel) (hs : s.status = .halted) : EventEffect s e s
  /-- both timers counted down -/
  | tick (hs : s.status ≠ .halted) :
      EventEffect s .tick ({ s with dt := countDown s.dt }.setSound (countDown s.st))
  /-- the entry to HALTED by the host -/
  | cancel (hs : s.status ≠ .halted) : EventEffect s .cancel (s.halt .cancelled .cancelled s.pc 0)
  /-- a key level -/
  | keys (k : Keys) : EventEffect s (.keys k) (s.setKeys k)
  /-- a random-byte level -/
  | rnd (b : Byte) : EventEffect s (.rnd b) (s.setRnd b)
  /-- a `load` before the first step -/
  | load (a : Word) (b : Byte) : EventEffect s (.load a b) (s.writeByte a b)
  /-- a reset -/
  | reset : EventEffect s .reset s.resetEvent

section
variable {s t : State}

theorem eventEffect_of_stepEvent (h : stepEvent s = .next t) : EventEffect s .step t := by
  rcases stepEvent_cases h with ⟨hs, rfl⟩ | ⟨hs, rfl⟩ | ⟨hs, i, hi⟩ | ⟨hs, rfl⟩
  · exact .noted hs
  · exact .polled hs
  · exact .executed hs i hi
  · exact .invalid hs

theorem eventEffect_tick : EventEffect s .tick s.tick := by
  by_cases hs : s.status = .halted
  · rw [State.tick_halted s hs]
    exact .frozen (.inl rfl) hs
  · rw [State.tick_eq_setSound hs]
    exact .tick hs

theorem eventEffect_cancel : EventEffect s .cancel s.cancel := by
  by_cases hs : s.status = .halted
  · rw [State.cancel_halted s hs]
    exact .frozen (.inr rfl) hs
  · rw [State.cancel_of_ne s hs]
    exact .cancel hs

/-- What a host event answers is one of its effects. -/
theorem eventEffect_of_hostEvent {e : HostEvent} (h : hostEvent e s = .next t) : EventEffect s e t := by
  cases e with
  | step => exact eventEffect_of_stepEvent h
  | tick => cases h; exact eventEffect_tick
  | keys k => cases h; exact .keys k
  | rnd b => cases h; exact .rnd b
  | load a b =>
    obtain ⟨_, rfl⟩ := State.load_cases s h
    exact .load a b
  | cancel => cases h; exact eventEffect_cancel
  | reset => cases h; exact .reset

/-- The state the next event acts on: the event taken from the queue (log entry 6). -/
def State.dequeued (s : State) : State := { s with pending := s.pending.tail }

/-- A step is an effect of the next event. -/
theorem step_effect (h : step s = .next t) : EventEffect s.dequeued (nextEvent s) t :=
  eventEffect_of_hostEvent ((step_eq s).symm.trans h)

end

/-! ### The beep (R127) -/

/-- A beep exactly where ST goes from nonzero to 0. -/
def BeepsAtSoundEnd (s t : State) : Prop := t.beeps = s.beeps + (if s.st ≠ 0 ∧ t.st = 0 then 1 else 0)

section
variable {s t : State}

/-- No change of ST, no beep. -/
theorem beepsAtSoundEnd_of_kept (hst : t.st = s.st) (hbeeps : t.beeps = s.beeps) : BeepsAtSoundEnd s t := by
  have hno : ¬ (s.st ≠ 0 ∧ t.st = 0) := fun h => h.1 (hst.symm.trans h.2)
  rw [BeepsAtSoundEnd, if_neg hno, hbeeps, Nat.add_zero]

/-- ST set in a state with the same ST and beeps. -/
theorem beepsAtSoundEnd_setSound (b : Byte) (hst : t.st = s.st) (hbeeps : t.beeps = s.beeps) :
    BeepsAtSoundEnd s (t.setSound b) := by
  rw [BeepsAtSoundEnd, State.setSound_beeps, State.setSound_st, hst, hbeeps]
  split <;> rfl

theorem exec_beepsAtSoundEnd {i : Instr} (h : exec i s = .next t) : BeepsAtSoundEnd s t := by
  cases effect_of_exec h with
  | sound x b => exact beepsAtSoundEnd_setSound b rfl rfl
  | registers | index | jump | keyRange | call | overflow | ret | underflow | clear | draw | store | wait | delay =>
    exact beepsAtSoundEnd_of_kept rfl rfl

theorem event_beepsAtSoundEnd {e : HostEvent} (h : EventEffect s e t) (he : e ≠ .reset) : BeepsAtSoundEnd s t := by
  cases h with
  | executed _ i hx => exact exec_beepsAtSoundEnd (s := s.executing) hx
  | tick => exact beepsAtSoundEnd_setSound _ rfl rfl
  | polled => exact beepsAtSoundEnd_of_kept (State.waitStep_st _) (State.waitStep_beeps _)
  | noted | invalid | frozen | cancel | keys | rnd | load => exact beepsAtSoundEnd_of_kept rfl rfl
  | reset => exact absurd rfl he

theorem event_reset (h : EventEffect s .reset t) : t = s.resetEvent := by
  cases h with
  | reset => rfl
  | frozen he => simp at he

end

/-- Settles O42: every event but a reset beeps at the sound's end only, and a reset starts the count anew. -/
theorem beepExactlyAtSoundEnd : Obligations.BeepExactlyAtSoundEnd := by
  refine fun s t h => ⟨event_beepsAtSoundEnd (s := s.dequeued) (step_effect h), fun he => ?_⟩
  have hreset := step_effect h
  rw [he] at hreset
  rw [event_reset hreset]
  rfl

/-! ### The event stream (R119, R124) -/

/-- The one condition an instruction may log: the stack faults and the key index check (R115, R124). -/
def MayLog (i : Instr) (c : EventCode) : Prop :=
  (c = .stackOverflow ∧ ∃ n, i = .op2NNN n) ∨ (c = .stackUnderflow ∧ i = .op00EE) ∨
    (c = .keyIndexRange ∧ ((∃ x, i = .opEX9E x) ∨ ∃ x, i = .opEXA1 x))

section
variable {s t : State} {i : Instr}

/-- An instruction leaves the stream, or appends one record of its own condition. -/
theorem exec_events (h : exec i s = .next t) :
    t.events = s.events ∨ ∃ r, t.events = s.events ++ [r] ∧ MayLog i r.code := by
  cases effect_of_exec h with
  | keyRange _ _ hi => exact .inr ⟨_, rfl, .inr (.inr ⟨rfl, hi⟩)⟩
  | overflow n => exact .inr ⟨_, rfl, .inl ⟨rfl, n, rfl⟩⟩
  | underflow => exact .inr ⟨_, rfl, .inr (.inl ⟨rfl, rfl⟩)⟩
  | registers | index | jump | call | ret | clear | draw | store | wait | delay | sound => exact .inl rfl

theorem exec_mayLog {r : EventRecord} (h : exec i s = .next t) (hr : t.events = s.events ++ [r]) : MayLog i r.code := by
  rcases exec_events h with hkept | ⟨q, hq, hlog⟩
  · exact absurd (hkept.symm.trans hr) (by simp)
  · obtain rfl : q = r := by simpa using hq.symm.trans hr
    exact hlog

theorem event_appends_at_most_one {e : HostEvent} (h : EventEffect s e t) (he : e ≠ .reset) :
    t.events = s.events ∨ ∃ r, t.events = s.events ++ [r] := by
  cases h with
  | executed _ i hx => exact (exec_events hx).imp_right fun ⟨r, hr, _⟩ => ⟨r, hr⟩
  | invalid | cancel => exact .inr ⟨_, rfl⟩
  | polled => exact .inl (State.waitStep_events _)
  | noted | frozen | tick | keys | rnd | load => exact .inl rfl
  | reset => exact absurd rfl he

end

/-- Settles O54: an event appends at most one record, an instruction one of its own condition. -/
theorem atMostOneEventRecord : Obligations.AtMostOneEventRecord :=
  ⟨fun s _ h => event_appends_at_most_one (s := s.dequeued) (step_effect h), fun _ _ _ _ => exec_mayLog⟩

/-! ### Cancel and HALTED (R117, R118) -/

section
variable {s t : State}

theorem step_cancel_halted (rest : List HostEvent) (h : s.status = .halted) :
    step { s with pending := .cancel :: rest } = .next { s with pending := rest } :=
  congrArg Host.Outcome.next (State.cancel_halted { s with pending := rest } h)

/-- With nothing pending the next event is a `step` (log entry 6). -/
theorem step_of_pending_nil (h : s.pending = []) : step s = stepEvent s := by rw [step, h]

/-- What a HALTED machine keeps in every event but a reset: STATUS and the cause. -/
theorem event_of_halted {e : HostEvent} (h : EventEffect s e t) (hs : s.status = .halted) (he : e ≠ .reset) :
    t.status = .halted ∧ t.faultCause = s.faultCause := by
  cases h with
  | noted | frozen | keys | rnd | load => exact ⟨hs, rfl⟩
  | polled h | executed h | invalid h => cases hs.symm.trans h
  | tick h | cancel h => exact absurd hs h
  | reset => exact absurd rfl he

end

/-- Settles O45: a cancel is an entry to HALTED at PC, and nothing while HALTED. -/
theorem cancelHalts : Obligations.CancelHalts :=
  ⟨fun s rest h => congrArg Host.Outcome.next (State.cancel_of_ne { s with pending := rest } h),
    fun _ rest => step_cancel_halted rest⟩

/-- Settles O43: a HALTED machine's step, tick and cancel, and what every event but a reset keeps. -/
theorem haltedIsTerminal : Obligations.HaltedIsTerminal := by
  refine ⟨fun s h hp => ?_, fun s rest h => ⟨?_, step_tick_halted rest h, step_cancel_halted rest h⟩,
    fun s t hs h ht => ?_⟩
  · rw [step_of_pending_nil hp, stepEvent_halted s h, State.markStepped]
  · exact stepEvent_halted { s with pending := rest } h
  · by_contra he
    obtain ⟨hstatus, _⟩ := event_of_halted (step_effect h) hs he
    exact ht hstatus

/-! ### Fault outcomes (R117) -/

section
variable {s t : State} {f : Fault}

/-- A fault outcome is HALTED with the fault's cause. -/
theorem faultOutcome_iff : faultOutcome s = some f ↔ s.status = .halted ∧ s.faultCause = f.cause := by
  rw [faultOutcome]
  cases s.status with
  | halted => cases s.faultCause <;> cases f <;> decide
  | running | waiting => simp

theorem faultOutcome_raise (f : Fault) (w : Word) : faultOutcome (s.raise f w) = some f := by cases f <;> rfl

/-- The stack fault of a call with 16 entries in use, or of a return on the empty stack (R69, R71, R116). -/
def StackFaultAt (s : State) (f : Fault) : Prop :=
  (f = .stackOverflow ∧ s.depth = 16) ∨ (f = .stackUnderflow ∧ s.depth = 0)

/-- An instruction that starts a fault outcome raises a stack fault. -/
theorem exec_starts_fault {i : Instr} (h : exec i s = .next t) (hs : s.status = .running) (hf : faultOutcome t = some f) :
    StackFaultAt s f := by
  obtain ⟨hstatus, _⟩ := faultOutcome_iff.1 hf
  cases effect_of_exec h with
  | overflow _ hfull w =>
    obtain rfl : .stackOverflow = f := Option.some.inj ((faultOutcome_raise _ w).symm.trans hf)
    exact .inl ⟨rfl, Fin.ext (Nat.eq_of_le_of_lt_succ (not_lt.1 hfull) s.depth.isLt)⟩
  | underflow hempty w =>
    obtain rfl : .stackUnderflow = f := Option.some.inj ((faultOutcome_raise _ w).symm.trans hf)
    exact .inr ⟨rfl, Fin.ext (Nat.eq_zero_of_not_pos hempty)⟩
  | wait => cases hstatus
  | registers | index | jump | keyRange | call | ret | clear | draw | store | delay | sound => cases hs.symm.trans hstatus

/-- The waiting step does not halt (R110). -/
theorem State.waitStep_ne_halted (hs : s.status ≠ .halted) : s.waitStep.status ≠ .halted := by
  cases hk : lowestKey (s.keySample &&& ~~~s.keyPrev) with
  | none => rwa [State.waitStep_none s hk]
  | some j => simp [State.waitStep_some s hk]

/-- An event that starts a fault outcome is a RUNNING step. -/
theorem event_starts_fault {e : HostEvent} (h : EventEffect s e t) (hs : s.status ≠ .halted)
    (hf : faultOutcome t = some f) : e = .step ∧ s.status = .running ∧ StackFaultAt s f := by
  obtain ⟨hstatus, hcause⟩ := faultOutcome_iff.1 hf
  cases h with
  | executed hrun i hx => exact ⟨rfl, hrun, exec_starts_fault (s := s.executing) hx hrun hf⟩
  | polled => exact absurd hstatus (State.waitStep_ne_halted (s := s.sampleInputs) hs)
  | cancel => cases f <;> cases hcause
  | reset => cases hstatus
  | noted | invalid | frozen | tick | keys | rnd | load => exact absurd hstatus hs

end

/-- Settles O44: a HALTED machine keeps STATUS and the cause, and only a RUNNING step's stack fault has a fault's cause. -/
theorem faultOutcomeLasts : Obligations.FaultOutcomeLasts := by
  refine ⟨fun s t f hf h he => ?_, fun s t f _ hs h => event_starts_fault (s := s.dequeued) (step_effect h) hs⟩
  obtain ⟨hs, hcause⟩ := faultOutcome_iff.1 hf
  obtain ⟨hstatus, hkept⟩ := event_of_halted (step_effect h) hs he
  exact faultOutcome_iff.2 ⟨hstatus, hkept.trans hcause⟩

end Sys2Proof.Machine

/-! Reset, loads and boot (70_reset_and_hazards.md R133 to R138): the one event the model refuses, and what a reset, a load and the
boot sequence leave. -/

namespace Sys2Proof.Machine

open Sys2Proof.Statements

/-! ### The one refusal (R136, log entries 4 and 12) -/

/-- A `step` event has a next state in every STATUS: an instruction completes, and an invalid opcode only logs. -/
theorem stepEvent_completes (s : State) : ∃ t, stepEvent s = .next t := by
  cases hs : s.status with
  | halted => exact ⟨_, stepEvent_halted s hs⟩
  | waiting => exact ⟨_, stepEvent_waiting s hs⟩
  | running =>
    rw [stepEvent_running s hs]
    cases hd : decodeWord s.fetchWord with
    | some i =>
      rw [runStep_decoded s hd]
      exact everyInstructionCompletes i _
    | none => exact ⟨_, runStep_invalid s hd⟩

/-- A host event has a next state, or is a `load` after the first step, which is refused. -/
theorem hostEvent_completes_or_refused (e : HostEvent) (s : State) : (∃ t, hostEvent e s = .next t) ∨
    (hostEvent e s = .refused .loadAfterFirstStep ∧ s.stepped = true ∧ ∃ a b, e = .load a b) := by
  cases e with
  | step => exact .inl (stepEvent_completes s)
  | tick | keys | rnd | cancel | reset => exact .inl ⟨_, rfl⟩
  | load a b =>
    cases hs : s.stepped with
    | false => exact .inl ⟨_, State.load_next s a b hs⟩
    | true => exact .inr ⟨State.load_refused s a b hs, rfl, a, b, rfl⟩

/-- Settles O12: the next event is a `step`, or the oldest one pending. -/
theorem onlyLateLoadIsRefused : Obligations.OnlyLateLoadIsRefused := by
  intro s
  cases hp : s.pending with
  | nil =>
    rw [step_of_pending_nil hp]
    exact .inl (stepEvent_completes s)
  | cons e rest =>
    have hstep : step s = hostEvent e { s with pending := rest } := by rw [step, hp]
    rw [hstep]
    rcases hostEvent_completes_or_refused e { s with pending := rest } with hnext | ⟨hrefused, hs, a, b, rfl⟩
    · exact .inl hnext
    · exact .inr ⟨hrefused, hs, a, b, rest, rfl⟩

/-! ### Reset (R133) -/

/-- A reset event gives every item the value `State.reset` has. -/
theorem resetEvent_atReset (s : State) : AtReset s.resetEvent :=
  have h : AtReset State.reset := resetValues
  { h with }

/-- Settles O47: the reset values, and what a reset event takes over from the state before it. -/
theorem resetEventRestoresReset : Obligations.ResetEventRestoresReset :=
  fun _ _ => ⟨_, rfl, resetEvent_atReset _, rfl, rfl, rfl, rfl, rfl, rfl, rfl⟩

/-! ### Loads (R136) -/

theorem romWellFormed_iff (rom : List Byte) : romWellFormed rom = true ↔ rom.length ≤ 3584 := decide_eq_true_iff

/-- A ROM that fits stands from 0x200 on without wrapping; nothing else of memory or of the state changes. -/
theorem State.loadRom_next {rom : List Byte} {s : State} (hs : s.stepped = false) (hlen : rom.length ≤ 3584) :
    ∃ t, State.loadRom rom s = .next t ∧
      (∀ (j : Nat) (h : j < rom.length), t.mem.read (0x200 + j) = rom[j]) ∧
      (∀ a, (a < 0x200 ∨ 0x200 + rom.length ≤ a) → t.mem.read a = s.mem.read a) ∧
      t = { s with mem := t.mem } := by
  obtain ⟨t, hload, hframe, hrom, hrest⟩ := State.loadBytes_next rom (by omega) programBase s hs
  have haddr : ∀ j, j < rom.length → (programBase.toNat + j) % 4096 = 0x200 + j := fun j hj =>
    Nat.mod_eq_of_lt (show 0x200 + j < 4096 by omega)
  refine ⟨t, ?_, fun j hj => ?_, fun a ha => hrest a fun j hj => ?_, hframe⟩
  · rw [State.loadRom, if_pos ((romWellFormed_iff rom).2 hlen)]
    exact hload
  · rw [← haddr j hj]
    exact hrom j hj
  · rw [haddr j hj]
    omega

theorem State.loadRom_refused {rom : List Byte} (s : State) (hlen : rom.length > 3584) :
    State.loadRom rom s = .refused .romTooLong := by
  rw [State.loadRom, if_neg (mt (romWellFormed_iff rom).1 (not_le.2 hlen))]

/-- Settles O48: a load event by `stepped`, and a ROM by its length. -/
theorem loadBeforeFirstStep : Obligations.LoadBeforeFirstStep := by
  refine ⟨fun s a b rest hs => ?_, fun s a b rest hs => State.load_refused { s with pending := rest } a b hs,
    fun _ _ => State.loadRom_next, fun s _ => State.loadRom_refused s⟩
  refine ⟨_, State.load_next { s with pending := rest } a b hs, fun c => ?_, rfl⟩
  rw [State.writeByte_mem, Memory.read_write, maskAddr_eq]

/-! ### Boot (R135, R137, R138) -/

/-- Settles O49: the font is loaded into the reset memory, and the ROM over it. -/
theorem bootPlacesFontAndRom : Obligations.BootPlacesFontAndRom := by
  intro s font rom k hrom hfont
  obtain ⟨t, ht, htframe, hfontAt, hzero⟩ :=
    State.loadBytes_next font hfont (s.params.fontBase.setWidth 16) s.resetEvent rfl
  have hbase : (s.params.fontBase.setWidth 16).toNat = s.params.fontBase.toNat :=
    BitVec.toNat_setWidth_of_le (by decide)
  rw [hbase] at hfontAt hzero
  have hstepped : t.stepped = false := by rw [htframe]; rfl
  obtain ⟨u, hu, hromAt, hkept, huframe⟩ := State.loadRom_next hstepped hrom
  have hboot : State.boot font rom k s = .next (u.setKeys k) := by
    rw [State.boot, ht]
    simp only [hu]
  have hframe : u.setKeys k = { s.resetEvent with mem := u.mem, keys := some k } := by
    rw [huframe, htframe]
    rfl
  exact ⟨u.setKeys k, hboot, hframe, hromAt, fun j hj hout => (hkept _ hout).trans (hfontAt j hj),
    fun a hout hfree => (hkept a hout).trans (hzero a hfree)⟩

end Sys2Proof.Machine
